-- ==== Sys2Proof/Word.lean ====
section
/-! DEFINITION. The word types of Vilyen (R3, R4, R114) and their plainest arithmetic. -/

namespace Sys2Proof

/-- A general register's word: 64 bits (R114, R139). -/
abbrev Word := BitVec 64

/-- One byte of any memory (R4). -/
abbrev Byte := BitVec 8

/-- A word of an instruction unit: 16 bits (R81). -/
abbrev IWord := BitVec 16

/-- The image of a vector register: 1,024 bits, lane 0 lowest (R4, R139). -/
abbrev Vec := BitVec 1024

/-- A general register number (R90). -/
abbrev RegNo := BitVec 6

/-- 1 for true, 0 for false, as the compare instructions write it (R156). -/
def boolWord (b : Bool) : Word := if b then 1 else 0

end Sys2Proof
end

