-- ==== Sys2Proof/Config.lean ====
section
/-! DEFINITION. What the manual leaves to the device: free values, opaque constants without a body, so that nothing
can be proved of what they are. Each is applied to a counter of the state (`State.fresh`), or to what it depends on. -/

namespace Sys2Proof.Config

/-- The device time, in units of 2^-32 ns, that passes with the n-th step (R389, R499: no latency is fixed). -/
opaque elapse : Nat → Nat

/-- The correction in parts per million that the clock servo chooses from an offset in ns (R390 bounds it by
100 ppm and gives no law). -/
opaque servo : Int → Int

/-- What decides the duty, 1 to 15 sixteenths, that the Crown sets for a paced domain from its grant and its demand (R36
gives the steps and not the law). -/
opaque duty : Nat → Nat → Nat

/-- The reading of a performance counter that counts cycles (R402 codes 0x01, 0x04, 0x05): timing is not modelled. -/
opaque cycleCount : Nat → BitVec 48

/-- A byte that the manual calls unspecified or gives no form (R2), by the step and its place within it: lines of a failed copy past the
failure (R337), the overlap of a copy's own-pool sides (R338), a changed stable page (R239), a save area (R242). -/
opaque freeByte : Nat → Nat → Byte

/-- The SHAKE256 digest of bytes, 64 bytes, and whether an ML-DSA-65 signature of a digest and a version verifies under the key with a fused
digest (R472): the standards give both, the manual neither. -/
opaque shake256 : List Byte → BitVec 512
opaque signatureOk : BitVec 512 → BitVec 512 → Nat → List Byte → Bool

/-- The certificate chain and signed measurements that ATTEST returns, as bytes, by identity and attestation key, nonce, the digests of the
loaded images, the fuse values and RDYC (R473): the keys are the module's. -/
opaque attestation : Nat → Nat → BitVec 256 → List (BitVec 512) → BitVec 512 × List (Nat × Nat) → Word → List Byte

/-- The device-virtual addresses that an optimiser command writes, by its type and record (R239; the record's form is its firmware's). -/
opaque commandWrites : Nat → BitVec 1024 → List Nat

/-- A telemetry word, by its offset and the numbers that it reports (R475 gives it no form). -/
opaque telemetry : Nat → List Nat → Word

/-- A byte of an entry of the launch table or the page request queue as READ copies it, by the numbers that the entry holds and its place
(R471 gives it no form). -/
opaque tableByte : List Nat → Nat → Byte

/-- The current that a forecast byte stands for (R321: in units of 1/255 of a full-load current that no rule gives). -/
opaque forecastShare : Nat → Nat

/-- Which packet of a replayed choice a wf-routed packet takes (R357): an index of a least-occupied output. -/
opaque adaptive : Nat → Nat

/-- The place within its chiplet's share of the edge at which a UCIe module of a rim chiplet joins the wafer (R30 gives the edges
and the chiplets' order, and no routers). -/
opaque rimPlace : Nat → Nat → Nat

/-- By how many ns a field's copy of device time lags behind the time base (R389 bounds the difference of two copies by 4 ns). -/
opaque fieldLag : Nat → Nat

/-- A word for which the manual states no value (GSTEP on a core that runs no gang, R414) or no form. -/
opaque freeWord : Nat → Word

end Sys2Proof.Config
end

