-- ==== Sys2Proof/Syntax.lean ====
section
/-! DEFINITION. The syntax: the instruction unit with its operand numbers, immediate payload and qualifiers
(R81 to R94), the data that events carry, and ONE inductive `Instr` with a constructor for every row of
spec/opcode_table.json: the units of the opcode map (R98), the fetch failures (R96, R97) and the operations and
events of the module (95_what_each_step_holds.md). -/

namespace Sys2Proof

/-- The payload of an XQ prefix (R83, R92). -/
structure Quals where
  /-- [9:7] predicate register -/
  pred : BitVec 3
  /-- [6] negate -/
  neg : Bool
  /-- [5:3] scope (pages 3, 4, 6) or rounding and saturation (page 1) -/
  hi : BitVec 3
  /-- [2:0] ordering (pages 3, 4, 6) or element type (pages 1, 2) -/
  lo : BitVec 3
  deriving DecidableEq, Repr

/-- A decoded instruction unit without its opcode (R82 to R86): which prefixes it carries, the operand numbers
with the high bits of XR joined, the concatenated XI payload, the K flag and the switch marker. The opcode is the
constructor of `Instr` that carries the unit. -/
structure VUnit where
  /-- an XP word stands in the unit (always on pages 1 to 6; on page 0 only as an XP of 0, R87) -/
  xp : Bool
  /-- the XQ payload, if the unit holds one -/
  xq : Option Quals
  /-- an XR word stands in the unit -/
  xr : Bool
  /-- number of XI words, 0 to 3 (R84) -/
  nxi : BitVec 2
  /-- the XI payloads concatenated, the first most significant (R85) -/
  xi : BitVec 30
  /-- operand a, XR[9:8] above fa (R86) -/
  a : RegNo
  /-- operand b, XR[7:6] above fb (R86) -/
  b : RegNo
  /-- operand c, XR[5:0] (R86) -/
  c : RegNo
  /-- the K flag (R82) -/
  k : Bool
  /-- the switch marker S (R82, R55) -/
  sw : Bool
  deriving DecidableEq, Repr

/-- A function with a ready bit (R40). -/
inductive Fn where
  | field (n : Nat) | rim (n : Nat) | hbm (n : Nat) | belvis (n : Nat)
  | crown | cpx | cxla | cxlb
  deriving DecidableEq, Repr

/-- The firmware images that the boot ROM verifies (R472). -/
inductive Firmware where
  | helhal | rv32e | tsc | optimiser | milliner | crown | training
  deriving DecidableEq, Repr

/-- A firmware image with its manifest (R472): digest, version and signature. -/
structure FwImage where
  kind : Firmware
  bytes : List Byte
  digest : BitVec 512
  version : Nat
  sig : List Byte
  deriving DecidableEq, Repr

/-- A write of the debugger to a halted tile (R451). -/
inductive DbgWrite where
  /-- general register r of context c of tile t -/
  | greg (t c : Nat) (r : RegNo) (v : Word)
  /-- predicate register -/
  | preg (t c : Nat) (r : BitVec 3) (v : BitVec 32)
  /-- stream register -/
  | sreg (t c : Nat) (r : BitVec 3) (v : BitVec 128)
  /-- system register by its number of R144 -/
  | sys (t c : Nat) (n : Nat) (v : Word)
  /-- pc -/
  | pc (t c : Nat) (v : Word)
  /-- the status byte of accumulator k (R141) -/
  | acc (t k : Nat) (v : BitVec 8)
  /-- pool bytes -/
  | pool (t off : Nat) (bytes : List Byte)
  deriving DecidableEq, Repr

/-- A Belvis transport frame as a port receives it (R459): module numbers, sequence number, cumulative
acknowledgement and whole 128-byte lines, each with the device or window address it is for. -/
structure BelvisFrame where
  src : BitVec 16
  dst : BitVec 16
  seq : BitVec 32
  ack : BitVec 32
  lines : List (Nat × List Byte)
  deriving DecidableEq, Repr

/-- What the environment supplies with an event: which tile, queue, cluster, module or launch it happens at, and the
outside data it brings. Each event's meaning says which fields it reads. An event's constructor of `Instr` carries
no field: its operands stand in the state (`State.arg`), put there by the step. -/
structure EvArg where
  /-- the first number: tile, queue, launch, cluster, chiplet, module or domain -/
  n : Nat := 0
  /-- a second number: context, position, slot, domain or index -/
  i : Nat := 0
  /-- a third number -/
  j : Nat := 0
  /-- a word -/
  w : Word := 0
  /-- a second word -/
  x : Word := 0
  /-- a flag -/
  b : Bool := false
  /-- numbers, for example measured currents or failing lanes -/
  nums : List Nat := []
  /-- bytes, for example of a host write -/
  bytes : List Byte := []
  /-- firmware images (MODULE_RESET, MAILBOX_RESTART) -/
  fw : List FwImage := []
  /-- a function (FUNCTION_READY, FUNCTION_LOST) -/
  fn : Fn := .crown
  /-- a debugger write -/
  dbg : Option DbgWrite := none
  /-- a Belvis frame -/
  frame : Option BelvisFrame := none
  deriving DecidableEq, Repr

/-- One step of the machine: a unit of the opcode map, a failed fetch, or an operation or event of the module. One
constructor per row of spec/opcode_table.json: first the units of the opcode map, then the three failed fetches,
then the operations and events, each group in the table's order (entry 5). -/
inductive Instr where
  /-- NOP, R155. -/
  | nop (u : VUnit)
  /-- MOV, R155. -/
  | mov (u : VUnit)
  /-- LDI, R155. -/
  | ldi (u : VUnit)
  /-- ADD, R156. -/
  | add (u : VUnit)
  /-- ADD_IMM, R156. -/
  | addImm (u : VUnit)
  /-- SUB, R156. -/
  | sub (u : VUnit)
  /-- SUB_IMM, R156. -/
  | subImm (u : VUnit)
  /-- MUL, R156. -/
  | mul (u : VUnit)
  /-- MUL_IMM, R156. -/
  | mulImm (u : VUnit)
  /-- MULH, R156. -/
  | mulh (u : VUnit)
  /-- MULH_IMM, R156. -/
  | mulhImm (u : VUnit)
  /-- MULHU, R156. -/
  | mulhu (u : VUnit)
  /-- MULHU_IMM, R156. -/
  | mulhuImm (u : VUnit)
  /-- DIV, R157. -/
  | div (u : VUnit)
  /-- DIV_IMM, R157. -/
  | divImm (u : VUnit)
  /-- DIVU, R157. -/
  | divu (u : VUnit)
  /-- DIVU_IMM, R157. -/
  | divuImm (u : VUnit)
  /-- REM, R157. -/
  | rem (u : VUnit)
  /-- REM_IMM, R157. -/
  | remImm (u : VUnit)
  /-- REMU, R157. -/
  | remu (u : VUnit)
  /-- REMU_IMM, R157. -/
  | remuImm (u : VUnit)
  /-- AND, R156. -/
  | and (u : VUnit)
  /-- AND_IMM, R156. -/
  | andImm (u : VUnit)
  /-- OR, R156. -/
  | or (u : VUnit)
  /-- OR_IMM, R156. -/
  | orImm (u : VUnit)
  /-- XOR, R156. -/
  | xor (u : VUnit)
  /-- XOR_IMM, R156. -/
  | xorImm (u : VUnit)
  /-- ANDN, R156. -/
  | andn (u : VUnit)
  /-- ANDN_IMM, R156. -/
  | andnImm (u : VUnit)
  /-- SHL, R156. -/
  | shl (u : VUnit)
  /-- SHL_IMM, R156. -/
  | shlImm (u : VUnit)
  /-- SHR, R156. -/
  | shr (u : VUnit)
  /-- SHR_IMM, R156. -/
  | shrImm (u : VUnit)
  /-- SAR, R156. -/
  | sar (u : VUnit)
  /-- SAR_IMM, R156. -/
  | sarImm (u : VUnit)
  /-- ROL, R156. -/
  | rol (u : VUnit)
  /-- ROL_IMM, R156. -/
  | rolImm (u : VUnit)
  /-- CLZ, R158. -/
  | clz (u : VUnit)
  /-- CTZ, R158. -/
  | ctz (u : VUnit)
  /-- POPC, R158. -/
  | popc (u : VUnit)
  /-- MIN, R156. -/
  | min (u : VUnit)
  /-- MIN_IMM, R156. -/
  | minImm (u : VUnit)
  /-- MAX, R156. -/
  | max (u : VUnit)
  /-- MAX_IMM, R156. -/
  | maxImm (u : VUnit)
  /-- MINU, R156. -/
  | minu (u : VUnit)
  /-- MINU_IMM, R156. -/
  | minuImm (u : VUnit)
  /-- MAXU, R156. -/
  | maxu (u : VUnit)
  /-- MAXU_IMM, R156. -/
  | maxuImm (u : VUnit)
  /-- SEXT, R159. -/
  | sext (u : VUnit)
  /-- ZEXT, R159. -/
  | zext (u : VUnit)
  /-- BFX, R160. -/
  | bfx (u : VUnit)
  /-- BFI, R160. -/
  | bfi (u : VUnit)
  /-- SEQ, R156. -/
  | seq (u : VUnit)
  /-- SEQ_IMM, R156. -/
  | seqImm (u : VUnit)
  /-- SLT, R156. -/
  | slt (u : VUnit)
  /-- SLT_IMM, R156. -/
  | sltImm (u : VUnit)
  /-- SLTU, R156. -/
  | sltu (u : VUnit)
  /-- SLTU_IMM, R156. -/
  | sltuImm (u : VUnit)
  /-- SEL, R161. -/
  | sel (u : VUnit)
  /-- SHADD, R162. -/
  | shadd (u : VUnit)
  /-- BR, R164. -/
  | br (u : VUnit)
  /-- CBEQ, R165. -/
  | cbeq (u : VUnit)
  /-- CBNE, R165. -/
  | cbne (u : VUnit)
  /-- CBLT, R165. -/
  | cblt (u : VUnit)
  /-- CBGE, R165. -/
  | cbge (u : VUnit)
  /-- CBLTU, R165. -/
  | cbltu (u : VUnit)
  /-- CBGEU, R165. -/
  | cbgeu (u : VUnit)
  /-- CALL, R164. -/
  | call (u : VUnit)
  /-- CALLR, R167. -/
  | callr (u : VUnit)
  /-- RET, R167. -/
  | ret (u : VUnit)
  /-- JMPR, R167. -/
  | jmpr (u : VUnit)
  /-- LOOP, R166. -/
  | loop (u : VUnit)
  /-- DONE, R168. -/
  | done (u : VUnit)
  /-- TRAP, R170. -/
  | trap (u : VUnit)
  /-- UPRET, R171. -/
  | upret (u : VUnit)
  /-- GETS, R173. -/
  | gets (u : VUnit)
  /-- SETS, R174. -/
  | sets (u : VUnit)
  /-- ERET, R172. -/
  | eret (u : VUnit)
  /-- PARK, R169. -/
  | park (u : VUnit)
  /-- VMOV, R181. -/
  | vmov (u : VUnit)
  /-- VMOV_STREAM_READ, R200. -/
  | vmovStreamRead (u : VUnit)
  /-- VMOV_STREAM_WRITE, R200. -/
  | vmovStreamWrite (u : VUnit)
  /-- VBCAST, R182. -/
  | vbcast (u : VUnit)
  /-- VBCAST_IMM, R182. -/
  | vbcastImm (u : VUnit)
  /-- VEXTR, R182. -/
  | vextr (u : VUnit)
  /-- VINS, R182. -/
  | vins (u : VUnit)
  /-- VADD, R183. -/
  | vadd (u : VUnit)
  /-- VSUB, R183. -/
  | vsub (u : VUnit)
  /-- VMUL, R183. -/
  | vmul (u : VUnit)
  /-- VFMA, R184. -/
  | vfma (u : VUnit)
  /-- VFMS, R184. -/
  | vfms (u : VUnit)
  /-- VMIN, R183. -/
  | vmin (u : VUnit)
  /-- VMAX, R183. -/
  | vmax (u : VUnit)
  /-- VABS, R185. -/
  | vabs (u : VUnit)
  /-- VNEG, R185. -/
  | vneg (u : VUnit)
  /-- VRCP, R187. -/
  | vrcp (u : VUnit)
  /-- VRSQ, R188. -/
  | vrsq (u : VUnit)
  /-- VEXP2, R189. -/
  | vexp2 (u : VUnit)
  /-- VAND, R183. -/
  | vand (u : VUnit)
  /-- VOR, R183. -/
  | vor (u : VUnit)
  /-- VXOR, R183. -/
  | vxor (u : VUnit)
  /-- VSHL, R186. -/
  | vshl (u : VUnit)
  /-- VSHL_IMM, R186. -/
  | vshlImm (u : VUnit)
  /-- VSHR, R186. -/
  | vshr (u : VUnit)
  /-- VSHR_IMM, R186. -/
  | vshrImm (u : VUnit)
  /-- VSAR, R186. -/
  | vsar (u : VUnit)
  /-- VSAR_IMM, R186. -/
  | vsarImm (u : VUnit)
  /-- VCMPEQ, R190. -/
  | vcmpeq (u : VUnit)
  /-- VCMPLT, R190. -/
  | vcmplt (u : VUnit)
  /-- VCMPLE, R190. -/
  | vcmple (u : VUnit)
  /-- VSEL, R192. -/
  | vsel (u : VUnit)
  /-- VPERM, R193. -/
  | vperm (u : VUnit)
  /-- VROT, R193. -/
  | vrot (u : VUnit)
  /-- VREDSUM, R194. -/
  | vredsum (u : VUnit)
  /-- VREDMAX, R194. -/
  | vredmax (u : VUnit)
  /-- VREDMIN, R194. -/
  | vredmin (u : VUnit)
  /-- VCVT, R191. -/
  | vcvt (u : VUnit)
  /-- VPACKB, R195. -/
  | vpackb (u : VUnit)
  /-- VUNPKB, R196. -/
  | vunpkb (u : VUnit)
  /-- VPLANE, R197. -/
  | vplane (u : VUnit)
  /-- VIOTA, R182. -/
  | viota (u : VUnit)
  /-- VIOTA_IMM, R182. -/
  | viotaImm (u : VUnit)
  /-- PAND, R198. -/
  | pand (u : VUnit)
  /-- POR, R198. -/
  | por (u : VUnit)
  /-- PXOR, R198. -/
  | pxor (u : VUnit)
  /-- PNOT, R198. -/
  | pnot (u : VUnit)
  /-- PSET, R198. -/
  | pset (u : VUnit)
  /-- PSET_IMM, R198. -/
  | psetImm (u : VUnit)
  /-- PGET, R198. -/
  | pget (u : VUnit)
  /-- PCNT, R198. -/
  | pcnt (u : VUnit)
  /-- PFIRST, R198. -/
  | pfirst (u : VUnit)
  /-- SBIND, R199. -/
  | sbind (u : VUnit)
  /-- SREL, R201. -/
  | srel (u : VUnit)
  /-- SSKIP, R201. -/
  | sskip (u : VUnit)
  /-- VREDAMAX, R194. -/
  | vredamax (u : VUnit)
  /-- LEASE, R214. -/
  | lease (u : VUnit)
  /-- UNLEASE, R214. -/
  | unlease (u : VUnit)
  /-- MFMT, R215. -/
  | mfmt (u : VUnit)
  /-- MLDW, R216. -/
  | mldw (u : VUnit)
  /-- MMA, R217. -/
  | mma (u : VUnit)
  /-- MMAS, R217. -/
  | mmas (u : VUnit)
  /-- MZERO, R218. -/
  | mzero (u : VUnit)
  /-- MACC, R218. -/
  | macc (u : VUnit)
  /-- MSCL, R218. -/
  | mscl (u : VUnit)
  /-- MROW, R220. -/
  | mrow (u : VUnit)
  /-- MSTA, R220. -/
  | msta (u : VUnit)
  /-- MLDA, R220. -/
  | mlda (u : VUnit)
  /-- MXCH, R221. -/
  | mxch (u : VUnit)
  /-- MQRY, R222. -/
  | mqry (u : VUnit)
  /-- MWT, R223. -/
  | mwt (u : VUnit)
  /-- LDB, R284. -/
  | ldb (u : VUnit)
  /-- LDH, R284. -/
  | ldh (u : VUnit)
  /-- LDW, R284. -/
  | ldw (u : VUnit)
  /-- LDD, R284. -/
  | ldd (u : VUnit)
  /-- LDBU, R284. -/
  | ldbu (u : VUnit)
  /-- LDHU, R284. -/
  | ldhu (u : VUnit)
  /-- LDWU, R284. -/
  | ldwu (u : VUnit)
  /-- STB, R285. -/
  | stb (u : VUnit)
  /-- STH, R285. -/
  | sth (u : VUnit)
  /-- STW, R285. -/
  | stw (u : VUnit)
  /-- STD, R285. -/
  | std (u : VUnit)
  /-- VLD, R286. -/
  | vld (u : VUnit)
  /-- VST, R286. -/
  | vst (u : VUnit)
  /-- VLDS, R287. -/
  | vlds (u : VUnit)
  /-- VSTS, R287. -/
  | vsts (u : VUnit)
  /-- VLDX, R288. -/
  | vldx (u : VUnit)
  /-- VSTX, R288. -/
  | vstx (u : VUnit)
  /-- AADD, R292. -/
  | aadd (u : VUnit)
  /-- AMIN, R292. -/
  | amin (u : VUnit)
  /-- AMAX, R292. -/
  | amax (u : VUnit)
  /-- AAND, R292. -/
  | aand (u : VUnit)
  /-- AOR, R292. -/
  | aor (u : VUnit)
  /-- AXOR, R292. -/
  | axor (u : VUnit)
  /-- ASWAP, R292. -/
  | aswap (u : VUnit)
  /-- ACAS, R292. -/
  | acas (u : VUnit)
  /-- AFADD, R292. -/
  | afadd (u : VUnit)
  /-- REDADD, R294. -/
  | redadd (u : VUnit)
  /-- REDFADD, R294. -/
  | redfadd (u : VUnit)
  /-- REDMAX, R294. -/
  | redmax (u : VUnit)
  /-- FENCE, R295. -/
  | fence (u : VUnit)
  /-- MONA, R297. -/
  | mona (u : VUnit)
  /-- MONW, R298. -/
  | monw (u : VUnit)
  /-- JDRAIN, R296. -/
  | jdrain (u : VUnit)
  /-- PREF, R299. -/
  | pref (u : VUnit)
  /-- OFENCE, R296. -/
  | ofence (u : VUnit)
  /-- SEND, R327. -/
  | send (u : VUnit)
  /-- SENDV, R327. -/
  | sendv (u : VUnit)
  /-- RECV, R329. -/
  | recv (u : VUnit)
  /-- RECV_POOL, R329. -/
  | recvPool (u : VUnit)
  /-- RECVV, R329. -/
  | recvv (u : VUnit)
  /-- RECVV_POOL, R329. -/
  | recvvPool (u : VUnit)
  /-- QLEN, R331. -/
  | qlen (u : VUnit)
  /-- SPAWN, R332. -/
  | spawn (u : VUnit)
  /-- XSEND, R333. -/
  | xsend (u : VUnit)
  /-- CPY, R335. -/
  | cpy (u : VUnit)
  /-- CPY2D, R336. -/
  | cpy2d (u : VUnit)
  /-- CPYQ, R340. -/
  | cpyq (u : VUnit)
  /-- GQPUSH, R341. -/
  | gqpush (u : VUnit)
  /-- GQPOP, R342. -/
  | gqpop (u : VUnit)
  /-- HQRY, R346. -/
  | hqry (u : VUnit)
  /-- HAPP, R350. -/
  | happ (u : VUnit)
  /-- DIVRD, R330. -/
  | divrd (u : VUnit)
  /-- OVL, R339. -/
  | ovl (u : VUnit)
  /-- TLBW, R376. -/
  | tlbw (u : VUnit)
  /-- TLBI, R378. -/
  | tlbi (u : VUnit)
  /-- TLBP, R375. -/
  | tlbp (u : VUnit)
  /-- RLQ, R381. -/
  | rlq (u : VUnit)
  /-- RLQ_IMM, R381. -/
  | rlqImm (u : VUnit)
  /-- RCLS, R382. -/
  | rcls (u : VUnit)
  /-- BMSK, R383. -/
  | bmsk (u : VUnit)
  /-- FCTX, R384. -/
  | fctx (u : VUnit)
  /-- PSCH, R385. -/
  | psch (u : VUnit)
  /-- XSCH, R386. -/
  | xsch (u : VUnit)
  /-- DCLS, R387. -/
  | dcls (u : VUnit)
  /-- LATQ, R388. -/
  | latq (u : VUnit)
  /-- ASIDG, R379. -/
  | asidg (u : VUnit)
  /-- ARV, R409. -/
  | arv (u : VUnit)
  /-- WTB, R409. -/
  | wtb (u : VUnit)
  /-- BARQ, R409. -/
  | barq (u : VUnit)
  /-- PRB, R409. -/
  | prb (u : VUnit)
  /-- GETT, R410. -/
  | gett (u : VUnit)
  /-- SLACK, R410. -/
  | slack (u : VUnit)
  /-- VALID, R411. -/
  | valid (u : VUnit)
  /-- VALID_REG, R411. -/
  | validReg (u : VUnit)
  /-- BRIMX, R412. -/
  | brimx (u : VUnit)
  /-- STEP, R413. -/
  | step (u : VUnit)
  /-- GSTEP, R414. -/
  | gstep (u : VUnit)
  /-- LDK, R417. -/
  | ldk (u : VUnit)
  /-- STK, R418. -/
  | stk (u : VUnit)
  /-- ADK, R419. -/
  | adk (u : VUnit)
  /-- MRGK, R420. -/
  | mrgk (u : VUnit)
  /-- VLDK, R417. -/
  | vldk (u : VUnit)
  /-- VADK, R419. -/
  | vadk (u : VUnit)
  /-- CKMK, R421. -/
  | ckmk (u : VUnit)
  /-- PERF, R422. -/
  | perf (u : VUnit)
  /-- SEQQ, R423. -/
  | seqq (u : VUnit)
  /-- ILLEGAL_INSTRUCTION, R97. -/
  | illegalInstruction (tra : Word)
  /-- OVERLAY_TRAP, R96. -/
  | overlayTrap (tra : Word)
  /-- INSTRUCTION_FETCH_TRAP, R163. -/
  | instructionFetchTrap (tra : Word)
  /-- MODULE_RESET, R39. -/
  | moduleReset
  /-- FUNCTION_READY, R40. -/
  | functionReady
  /-- FUNCTION_LOST, R40. -/
  | functionLost
  /-- CLOCK_LOCK_GAINED, R390. -/
  | clockLockGained
  /-- CLOCK_LOCK_LOST, R390. -/
  | clockLockLost
  /-- PTP_MESSAGE, R390. -/
  | ptpMessage
  /-- CROWN_BUDGET_DIVISION, R36. -/
  | crownBudgetDivision
  /-- JUNCTION_THRESHOLD_105, R38. -/
  | junctionThreshold105
  /-- JUNCTION_THRESHOLD_115, R38. -/
  | junctionThreshold115
  /-- COOLANT_FLOW_ALARM, R38. -/
  | coolantFlowAlarm
  /-- COOLANT_FLOW_RETURN, R38. -/
  | coolantFlowReturn
  /-- POWER_DOMAIN_LOSS, R444. -/
  | powerDomainLoss
  /-- MANAGEMENT_REGISTER_WRITE, R456. -/
  | managementRegisterWrite
  /-- DOORBELL, R466. -/
  | doorbell
  /-- QUEUE_CREATE, R466. -/
  | queueCreate
  /-- QUEUE_DESTROY, R468. -/
  | queueDestroy
  /-- QUEUE_DESTROY_AND_BRIM, R468. -/
  | queueDestroyAndBrim
  /-- QUEUE_CLEAR_ERROR, R467. -/
  | queueClearError
  /-- PARTITION_ENABLE, R498. -/
  | partitionEnable
  /-- PARTITION_DISABLE, R498. -/
  | partitionDisable
  /-- STRIDE_PASS, R317. -/
  | stridePass
  /-- LAUNCH, R464. -/
  | launchPacket
  /-- LAUNCHI, R462. -/
  | launchiPacket
  /-- LOOP_PACKET, R462. -/
  | loopPacket
  /-- ENDLOOP, R462. -/
  | endloopPacket
  /-- IF, R462. -/
  | ifPacket
  /-- WAITSIG, R462. -/
  | waitsigPacket
  /-- CONDITION_REEVALUATION, R462. -/
  | conditionReevaluation
  /-- SIGNAL, R462. -/
  | signalPacket
  /-- WRITE, R462. -/
  | writePacket
  /-- COPY, R462. -/
  | copyPacket
  /-- FENCE_PACKET, R462. -/
  | fencePacket
  /-- STEPC, R462. -/
  | stepcPacket
  /-- TIMEWAIT, R462. -/
  | timewaitPacket
  /-- TIMEWAIT_EXPIRY, R462. -/
  | timewaitExpiry
  /-- GANG_RELEASE, R47. -/
  | gangRelease
  /-- TILE_RELEASE, R48. -/
  | tileRelease
  /-- GANG_COMPLETION, R268. -/
  | gangCompletion
  /-- FATAL_REPORT, R428. -/
  | fatalReport
  /-- FORCED_BRIM_WRITE, R392. -/
  | forcedBrimWrite
  /-- HELHAL_HEARTBEAT, R470. -/
  | helhalHeartbeat
  /-- COMMAND_PROCESSOR_HUNG, R470. -/
  | commandProcessorHung
  /-- MAILBOX_READ, R471. -/
  | mailboxRead
  /-- MAILBOX_STEP, R471. -/
  | mailboxStep
  /-- MAILBOX_ANSWER, R471. -/
  | mailboxAnswer
  /-- MAILBOX_RESTART, R471. -/
  | mailboxRestart
  /-- ATTEST, R473. -/
  | attest
  /-- HOST_PAGE_ANSWER, R375. -/
  | hostPageAnswer
  /-- GANG_SWITCH_ANNOUNCEMENT, R76. -/
  | gangSwitchAnnouncement
  /-- GANG_SWITCH, R76. -/
  | gangSwitch
  /-- SAVE, R447. -/
  | saveTile
  /-- GANG_RESUME, R448. -/
  | gangResume
  /-- BRIM_TIME, R68. -/
  | brimTime
  /-- DEADLINE, R72. -/
  | deadlineTime
  /-- TASK_START, R51. -/
  | taskStart
  /-- RESULT_LANDING, R56. -/
  | resultLanding
  /-- PARK_WAKE_TIME, R169. -/
  | parkWakeTime
  /-- MESSAGE_ADMISSION, R308. -/
  | messageAdmission
  /-- SPAWN_ADMISSION, R52. -/
  | spawnAdmission
  /-- PAGE_ANSWER_NOTICE, R377. -/
  | pageAnswerNotice
  /-- REMOTE_POOL_ACCESS, R233. -/
  | remotePoolAccess
  /-- HOME_SLICE_REQUEST, R246. -/
  | homeSliceRequest
  /-- CXL_PORT_REQUEST, R240. -/
  | cxlPortRequest
  /-- JOURNAL_ACKNOWLEDGEMENT, R251. -/
  | journalAcknowledgement
  /-- REFUSAL_RECEIPT, R427. -/
  | refusalReceipt
  /-- ASYNC_TRAP_DELIVERY, R427. -/
  | asyncTrapDelivery
  /-- COPY_TOKEN, R337. -/
  | copyToken
  /-- HERON_APPEND_WRITE, R351. -/
  | heronAppendWrite
  /-- HERON_SCAN, R347. -/
  | heronScan
  /-- HERON_TOKEN, R349. -/
  | heronToken
  /-- ARRAY_COMMAND_START, R219. -/
  | arrayCommandStart
  /-- ARRAY_COMMAND_COMPLETION, R219. -/
  | arrayCommandCompletion
  /-- COLUMN_RESIDUE_MISMATCH, R433. -/
  | columnResidueMismatch
  /-- LEASE_END, R205. -/
  | leaseEnd
  /-- EXCHANGE_START, R221. -/
  | exchangeStart
  /-- EXCHANGE_END, R221. -/
  | exchangeEnd
  /-- BARRIER_WAVE, R398. -/
  | barrierWave
  /-- DOMAIN_COMPLETION, R396. -/
  | domainCompletion
  /-- PROBE_VISIT, R399. -/
  | probeVisit
  /-- INTERVAL_TIMER_EXPIRY, R400. -/
  | intervalTimerExpiry
  /-- DIRTY_COUNT_LIMIT, R400. -/
  | dirtyCountLimit
  /-- ARRIVAL_LOG_THRESHOLD, R435. -/
  | arrivalLogThreshold
  /-- STAGING_ACKNOWLEDGED, R435. -/
  | stagingAcknowledged
  /-- COMMIT, R435. -/
  | commitBoundary
  /-- FULL_BOUNDARY, R437. -/
  | fullBoundary
  /-- LOG_RECORD_ACK, R439. -/
  | logRecordAck
  /-- EGRESS_HOLD_EXPIRY, R432. -/
  | egressHoldExpiry
  /-- NI_INJECTION, R306. -/
  | niInjection
  /-- PACKET_HOP, R355. -/
  | packetHop
  /-- RETRANSMISSION_TIMEOUT, R328. -/
  | retransmissionTimeout
  /-- CLASS6_RETRANSMISSION_TIMEOUT, R485. -/
  | class6RetransmissionTimeout
  /-- CHANNEL_IDLE_CLOSE, R370. -/
  | channelIdleClose
  /-- CORE_HEARTBEAT, R430. -/
  | coreHeartbeat
  /-- WATCHDOG_EXPIRY, R430. -/
  | watchdogExpiry
  /-- TSC_WATCHDOG_EXPIRY, R430. -/
  | tscWatchdogExpiry
  /-- DETECTION_EVENT, R431. -/
  | detectionEvent
  /-- OPTIMISER_CORE_FAILURE, R431. -/
  | optimiserCoreFailure
  /-- MILLINER_REPAIR, R441. -/
  | millinerRepair
  /-- CAUSEWAY_UPDATE, R358. -/
  | causewayUpdate
  /-- REPLAY_END, R440. -/
  | replayEnd
  /-- BACKGROUND_RETEST, R441. -/
  | backgroundRetest
  /-- DEBUG_HALT_REQUEST, R450. -/
  | debugHaltRequest
  /-- DEBUG_HALT_RELEASE, R450. -/
  | debugHaltRelease
  /-- DEBUGGER_WRITE, R451. -/
  | debuggerWrite
  /-- FLIT_TRANSMIT, R482. -/
  | flitTransmit
  /-- FLIT_RECEIVE, R457. -/
  | flitReceive
  /-- NAK_RECEIVE, R457. -/
  | nakReceive
  /-- LANE_FAILURE, R458. -/
  | laneFailure
  /-- RETRAIN_COMPLETE, R484. -/
  | retrainComplete
  /-- BELVIS_FRAME_RECEIVE, R459. -/
  | belvisFrameReceive
  /-- BELVIS_RESEND_TIMEOUT, R459. -/
  | belvisResendTimeout
  /-- GRADIENT_PUSH_ARRIVAL, R341. -/
  | gradientPushArrival
  /-- POP_ACKNOWLEDGEMENT, R343. -/
  | popAcknowledgement
  /-- OPTIMISER_COMPLETION_NOTICE, R343. -/
  | optimiserCompletionNotice
  /-- SWEEP_VISIT, R404. -/
  | sweepVisit
  /-- MESSAGE_ACKNOWLEDGEMENT, R328. -/
  | messageAcknowledgement
  /-- COPY_DATA_ARRIVAL, R335. -/
  | copyDataArrival
  /-- CXL_MEM_ACCESS, R454. -/
  | cxlMemAccess
  /-- FULL_RE_TEST, R17. -/
  | fullReTest
  /-- SAVE_INCOMPLETE_RESOLUTION, R449. -/
  | saveIncompleteResolution
  deriving DecidableEq, Repr

end Sys2Proof
end

