-- ==== Sys2Proof/Machine/Shapes.lean ====
section
/-! DEFINITION. The opcode map of R98 as a table: for each page and op6 the instruction and what its operand slots,
prefixes and qualifiers accept (R88 to R94, and the encoding tables of R155 to R173, R178, R211, R278, R323, R324,
R373, R407). The immediates of R89 are read off a unit here too. -/

namespace Sys2Proof

/-! ### What a unit says -/

/-- Predicate register and negate flag in force (R92: p0 without XQ). -/
def VUnit.pred (u : VUnit) : BitVec 3 := (u.xq.map Quals.pred).getD 0
def VUnit.neg (u : VUnit) : Bool := (u.xq.map Quals.neg).getD false

/-- XQ[5:3] in force as a rounding code (page 1 default rne, R92). -/
def VUnit.rnd (u : VUnit) : Nat := ((u.xq.map Quals.hi).getD 0).toNat
/-- XQ[2:0] in force as an element type (pages 1 and 2 default f32, R92). -/
def VUnit.ety (u : VUnit) : Nat := ((u.xq.map Quals.lo).getD 0).toNat
/-- XQ[5:3] in force as a scope (pages 3, 4, 6 default gang, R92). -/
def VUnit.scope (u : VUnit) : Nat := ((u.xq.map Quals.hi).getD 5).toNat
/-- XQ[2:0] in force as an ordering (default relaxed, R92). -/
def VUnit.ord (u : VUnit) : Nat := ((u.xq.map Quals.lo).getD 0).toNat

/-- Number of 16-bit words of the unit (R81). -/
def VUnit.words (u : VUnit) : Nat := u.xp.toNat + u.xq.isSome.toNat + u.xr.toNat + u.nxi.toNat + 1
/-- Length of the unit in bytes (R81). -/
def VUnit.len (u : VUnit) : Nat := 2 * u.words

/-- Sign extension of the low `w` bits of `n` to 64 bits. -/
def sextNat (w n : Nat) : Word :=
  let m := n % 2 ^ w
  if 2 * m < 2 ^ w then BitVec.ofNat 64 m else BitVec.ofNat 64 (m + (2 ^ 64 - 2 ^ w))

/-- The IK immediate (R89): XI payload, then fb. -/
def VUnit.ik (u : VUnit) : Word :=
  sextNat (4 + 10 * u.nxi.toNat) (u.xi.toNat * 16 + u.b.toNat % 16)
/-- The IO immediate (R89): the XI payload, 0 when absent. -/
def VUnit.io (u : VUnit) : Word := if u.nxi = 0 then 0 else sextNat (10 * u.nxi.toNat) u.xi.toNat
/-- The IB immediate (R89): XI payload, fa, fb, in 16-bit words. -/
def VUnit.ib (u : VUnit) : Word :=
  sextNat (8 + 10 * u.nxi.toNat) (u.xi.toNat * 256 + (u.a.toNat % 16) * 16 + u.b.toNat % 16)
/-- The IC immediate (R89): the XI payload, in 16-bit words. -/
def VUnit.ic (u : VUnit) : Word := sextNat (10 * u.nxi.toNat) u.xi.toNat
/-- The payload of the one XI word of a pattern E unit. -/
def VUnit.x (u : VUnit) : Nat := u.xi.toNat
/-- Bits [hi:lo] of that payload. -/
def VUnit.xbits (u : VUnit) (hi lo : Nat) : Nat := u.xi.toNat / 2 ^ lo % 2 ^ (hi + 1 - lo)

/-! ### What a slot accepts -/

/-- What an operand slot accepts (R88, R90 and the descriptions of pattern E). -/
inductive Slot where
  /-- a general register -/
  | g
  /-- a vector register, 0 to 31 -/
  | v
  /-- a predicate register, 0 to 7 -/
  | p
  /-- a stream register, 0 to 7 -/
  | s
  /-- an accumulator below the partition word's count -/
  | acc
  /-- must be zero -/
  | zero
  /-- the low four bits are immediate bits, the high two must be zero -/
  | nib
  /-- a plain number in a range, not a register -/
  | num (lo hi : Nat)
  /-- an even general register from 2 to 62 -/
  | pair
  /-- a multiple of four, `lo` to 60 -/
  | quad (lo : Nat)
  /-- a general register other than 0 -/
  | gNonzero
  /-- slot bit above an accumulator number (MMA, MMAS) -/
  | slotAcc
  /-- a multiple of 8 up to 24, the first of eight vector registers (VPLANE) -/
  | vBlock
  deriving DecidableEq, Repr

/-- Does the slot accept the number, with `nacc` accumulators? -/
def Slot.ok (nacc : Nat) : Slot → Nat → Bool
  | .g, _ => true
  | .v, n => n < 32
  | .p, n => n < 8
  | .s, n => n < 8
  | .acc, n => n < 8 && n < nacc
  | .zero, n => n == 0
  | .nib, n => n < 16
  | .num lo hi, n => lo ≤ n && n ≤ hi
  | .pair, n => n % 2 == 0 && 2 ≤ n && n ≤ 62
  | .quad lo, n => n % 4 == 0 && lo ≤ n && n ≤ 60
  | .gNonzero, n => n != 0
  | .slotAcc, n => n < 16 && n % 8 < nacc
  | .vBlock, n => n % 8 == 0 && n ≤ 24

/-- Is XR accepted (R88)? -/
inductive XrRule where
  | never | may | must
  deriving DecidableEq, Repr

/-- Which XI words a unit takes (R89 and the descriptions of pattern E). -/
inductive XiRule where
  /-- none -/
  | none
  /-- an IK immediate with at most this many XI words -/
  | ik (most : Nat)
  /-- an IO or IB immediate, 0 to 3 words -/
  | upTo3
  /-- an IC immediate, at least one word -/
  | ic
  /-- exactly one word, with only the bits of the mask assigned -/
  | one (mask : Nat)
  /-- at most one word, with only the bits of the mask assigned -/
  | opt (mask : Nat)
  deriving DecidableEq, Repr

/-- The word of a unit that holds a failing field (R96). -/
inductive BadWord where
  | xq | xr | xi | base
  deriving DecidableEq, Repr

/-- One row of the opcode map: the instruction and what its unit accepts. -/
structure Row where
  /-- the instruction -/
  ins : VUnit → Instr
  /-- supervisor-only (the asterisk of R98) -/
  sup : Bool := false
  /-- the K value required, if one is -/
  k : Option Bool := some false
  fa : Slot := .zero
  fb : Slot := .zero
  fc : Slot := .zero
  xr : XrRule := .may
  xi : XiRule := .none
  /-- codes accepted in XQ[5:3], bit n for code n -/
  hi : Nat := 1
  /-- codes accepted in XQ[2:0] -/
  lo : Nat := 1
  /-- the code of XQ[5:3] that a unit without XQ carries -/
  hi0 : Nat := 0
  /-- predicate and negate are assigned -/
  predOk : Bool := true
  /-- further limits that the description gives -/
  lim : VUnit → Option BadWord := fun _ => none

/-! ### Row forms -/

/-- Element type sets of R178. -/
def tyF : Nat := 0x07
def tyI : Nat := 0x38
def tyU : Nat := 0xC0
def tyAny : Nat := 0xFF

/-- A code is a float type (R94). -/
def isFloatTy (t : Nat) : Bool := t < 3

def limIk (lo hi : Int) (u : VUnit) : Option BadWord :=
  if lo ≤ u.ik.toInt ∧ u.ik.toInt ≤ hi then none else some .base

/-- "round" on an integer type accepts codes 0 and 4 only (R177). -/
def limRound (u : VUnit) : Option BadWord :=
  if isFloatTy u.ety || u.rnd == 0 || u.rnd == 4 then none else some .xq
/-- VREDSUM rounds only on float types (R178). -/
def limRedSum (u : VUnit) : Option BadWord :=
  if isFloatTy u.ety || u.rnd == 0 then none else some .xq
/-- BFX and BFI (R160): pos + len at most 64. -/
def limField (u : VUnit) : Option BadWord :=
  if u.c.toNat + (u.xbits 5 0 + 1) ≤ 64 then none else some .base

/-- Element width in bits of a type code (R176). -/
def tyWidth (t : Nat) : Nat := match t with
  | 0 => 32 | 1 => 16 | 2 => 16 | 3 => 32 | 4 => 16 | 5 => 8 | 6 => 32 | _ => 8

/-- VCVT (R191): part below the ratio of the widths; codes 1 to 3 only where the conversion can round; code 4 only
to an integer. The rounding code and the destination type stand in the one XQ word, which TRA names when those two
disagree; a limit that combines XQ and XI names the base word. (R96 can also be read for the base word in the first
case: DEDUCED, log entry 67.) -/
def limVcvt (u : VUnit) : Option BadWord :=
  let d := u.ety
  let src := u.xbits 2 0
  let part := u.xbits 4 3
  let wd := tyWidth d
  let ws := tyWidth src
  let ratio := if wd < ws then ws / wd else wd / ws
  let rounds := (src == 0 && (d == 1 || d == 2)) || (src == 1 && d == 2) || (src == 2 && d == 1)
    || (isFloatTy src != isFloatTy d)
  if ¬ part < ratio then some .base
  else if u.rnd == 0 then none
  else if u.rnd == 4 then (if isFloatTy d then some .xq else none)
  else if rounds then none else some .base

/-- VPACKB, VUNPKB (R195, R196): part below 4 for 8-bit, below 2 for 16-bit integers. -/
def limPackb (u : VUnit) : Option BadWord :=
  if u.xbits 1 0 < (if u.ety == 5 then 4 else 2) then none else some .base
def limUnpkb (u : VUnit) : Option BadWord :=
  if u.xbits 1 0 < (if u.xbits 2 2 == 0 then 4 else 2) then none else some .xi

/-- Planes of a plane format code (R116, R117, R197). -/
def planesOf (f : Nat) : Nat := match f with
  | 0 => 2 | 1 => 4 | 2 => 8 | 3 => 12 | _ => 16
/-- VPLANE (R197): format 0 to 4 and part within the planes. -/
def limPlane (u : VUnit) : Option BadWord :=
  let f := u.xbits 2 0
  let most := match f with | 0 => 1 | 1 => 1 | 2 => 2 | 3 => 3 | _ => 4
  if f ≤ 4 ∧ u.xbits 4 3 < most then none else some .xi

/-- Strided forms (R287): z code below 3 and log2 n at most log2 N. -/
def limStrided (u : VUnit) : Option BadWord :=
  let z := u.xbits 1 0
  if z < 3 ∧ u.xbits 4 2 ≤ 5 + z then none else some .xi
/-- Indexed forms (R288): z code below 3. -/
def limIndexed (u : VUnit) : Option BadWord := if u.xbits 1 0 < 3 then none else some .xi
/-- SEND, SENDV (R323): tcx not 8 to 14. -/
def limTcx (u : VUnit) : Option BadWord :=
  if u.xbits 3 0 < 8 || u.xbits 3 0 == 15 then none else some .xi
/-- DIVRD (R323): class 0 to 5. -/
def limDivrd (u : VUnit) : Option BadWord := if u.xbits 2 0 < 6 then none else some .xi
/-- SEQQ (R407): class 1 to 5. -/
def limSeqq (u : VUnit) : Option BadWord :=
  if 1 ≤ u.xbits 2 0 ∧ u.xbits 2 0 ≤ 5 then none else some .xi

/-- Access of a system register number in R144: `none` unassigned; otherwise (user may read, user may write,
supervisor may write). -/
def sysAccess (n : Nat) : Option (Bool × Bool × Bool) :=
  if n = 0x000 ∨ n = 0x00B ∨ n = 0x018 ∨ n = 0x01C ∨ n = 0x01D then some (true, true, true)
  else if (0x001 ≤ n ∧ n ≤ 0x00A) ∨ (0x010 ≤ n ∧ n ≤ 0x015) then some (true, false, false)
  else if n = 0x019 ∨ n = 0x01E ∨ n = 0x01F ∨ n = 0x020 then some (true, false, true)
  else if 0x100 ≤ n ∧ n ≤ 0x106 then some (false, false, true)
  else none
def limGets (u : VUnit) : Option BadWord := if (sysAccess u.x).isSome then none else some .xi
/-- SETS (R173, R174): a register that supervisor mode may write. -/
def limSets (u : VUnit) : Option BadWord :=
  match sysAccess u.x with
  | some (_, _, true) => none
  | _ => some .xi

/-- Pattern A2 and A2I over one register file (R88, R156). -/
def rA2 (ins : VUnit → Instr) (f : Slot := .g) : Row := { ins, fa := f, fb := f, fc := f }
def rA2I (ins : VUnit → Instr) (f : Slot := .g) : Row :=
  { ins, k := some true, fa := f, fb := .nib, fc := f, xi := .ik 3 }
/-- Patterns A1 and A1I (R88): XR's c must be 0. -/
def rA1 (ins : VUnit → Instr) (fa fb : Slot) : Row := { ins, fa, fb }
def rA1I (ins : VUnit → Instr) (fa : Slot) : Row := { ins, k := some true, fa, fb := .nib, xi := .ik 3 }
/-- Pattern N (R88). -/
def rN (ins : VUnit → Instr) : Row := { ins, xr := .never }
/-- Pattern B (R88): fa and fb are immediate bits. -/
def rB (ins : VUnit → Instr) : Row := { ins, fa := .nib, fb := .nib, xr := .never, xi := .upTo3 }
/-- Pattern C (R88). -/
def rC (ins : VUnit → Instr) : Row := { ins, fa := .g, fb := .g, xi := .ic }
/-- Pattern E with three operands, XR required. -/
def rE3 (ins : VUnit → Instr) (fa fb fc : Slot) : Row := { ins, fa, fb, fc, xr := .must }
/-- Pattern M (R88, R277). -/
def rM (ins : VUnit → Instr) (fa : Slot) (lo : Nat) : Row :=
  { ins, fa, fb := .g, fc := .g, xi := .upTo3, hi := 0xFF, lo, hi0 := 5 }
/-- Atomics and reductions (R291, R294): pattern E with the fields of pattern M, K the width. -/
def rAtomic (ins : VUnit → Instr) (fa : Slot) (lo : Nat) (k : Option Bool := none) : Row :=
  { ins, k, fa, fb := .g, fc := .g, xi := .upTo3, hi := 0xFF, lo, hi0 := 5 }

/-- Page 1 rows: element types and rounding codes (R178). -/
def Row.ty (r : Row) (types : Nat) : Row := { r with lo := types }
def Row.round (r : Row) : Row := { r with hi := 0x1F, lim := limRound }
def Row.sat (r : Row) : Row := { r with hi := 0x11 }
def Row.noPred (r : Row) : Row := { r with predOk := false }
def Row.lims (r : Row) (f : VUnit → Option BadWord) : Row := { r with lim := f }
def Row.xiR (r : Row) (x : XiRule) : Row := { r with xi := x }
/-- Pages 4 and 6: scope and ordering codes (R324, R407). -/
def Row.so (r : Row) (hi lo : Nat) : Row := { r with hi, lo, hi0 := 5 }
def Row.super (r : Row) : Row := { r with sup := true }

/-- What stands at one op6 of a page: nothing, one instruction, two that K selects between, or VMOV's three forms
(R98, R178, R181). -/
inductive Entry where
  | none
  | one (r : Row)
  | byK (k0 k1 : Row)
  | vmov (copy read write : Row)

/-- Page 0 of R98 (R155 to R173). -/
def page0 : List Entry := [
  .one (rN .nop), .one (rA1 .mov .g .g), .one (rA1I .ldi .g),
  .byK (rA2 .add) (rA2I .addImm), .byK (rA2 .sub) (rA2I .subImm), .byK (rA2 .mul) (rA2I .mulImm),
  .byK (rA2 .mulh) (rA2I .mulhImm), .byK (rA2 .mulhu) (rA2I .mulhuImm), .byK (rA2 .div) (rA2I .divImm),
  .byK (rA2 .divu) (rA2I .divuImm), .byK (rA2 .rem) (rA2I .remImm), .byK (rA2 .remu) (rA2I .remuImm),
  .byK (rA2 .and) (rA2I .andImm), .byK (rA2 .or) (rA2I .orImm), .byK (rA2 .xor) (rA2I .xorImm),
  .byK (rA2 .andn) (rA2I .andnImm), .byK (rA2 .shl) (rA2I .shlImm), .byK (rA2 .shr) (rA2I .shrImm),
  .byK (rA2 .sar) (rA2I .sarImm), .byK (rA2 .rol) (rA2I .rolImm),
  .one (rA1 .clz .g .g), .one (rA1 .ctz .g .g), .one (rA1 .popc .g .g)] ++ [
  .byK (rA2 .min) (rA2I .minImm), .byK (rA2 .max) (rA2I .maxImm), .byK (rA2 .minu) (rA2I .minuImm),
  .byK (rA2 .maxu) (rA2I .maxuImm),
  .one ((rA2I .sext).lims (limIk 1 64)), .one ((rA2I .zext).lims (limIk 1 64)),
  .one (((rE3 .bfx .g .g .g).xiR (.one 0x7F)).lims limField),
  .one (((rE3 .bfi .g .g .g).xiR (.one 0x3F)).lims limField),
  .byK (rA2 .seq) (rA2I .seqImm), .byK (rA2 .slt) (rA2I .sltImm), .byK (rA2 .sltu) (rA2I .sltuImm),
  .one (rE3 .sel .g .g .g), .one ((rE3 .shadd .g .g .g).xiR (.one 0x07)),
  .one (rB .br), .one (rC .cbeq), .one (rC .cbne), .one (rC .cblt), .one (rC .cbge), .one (rC .cbltu),
  .one (rC .cbgeu), .one (rB .call), .one (rA1 .callr .zero .g), .one (rN .ret), .one (rA1 .jmpr .zero .g),
  .one (rC .loop), .one (rN .done),
  .one { ins := .trap, k := some true, fb := .nib, xr := .never, xi := .ik 3, lim := limIk 0 255 },
  .one (rA1 .upret .zero .g),
  .one (((rA1 .gets .g .zero).xiR (.one 0x3FF)).lims limGets),
  .one (((rA1 .sets .zero .g).xiR (.one 0x3FF)).lims limSets),
  .one (rN .eret).super, .one (rA1 .park .g .zero)]

/-- Page 1 of R98, with the types and rounding classes of R178. -/
def page1 : List Entry := [
  .vmov ((rA1 .vmov .v .v).ty tyAny) ({ rA1 .vmovStreamRead .v (.num 0 7) with k := some true }.ty tyAny)
    ({ rA1 .vmovStreamWrite .v (.num 8 15) with k := some true }.ty tyAny),
  .byK ((rA1 .vbcast .v .g).ty tyAny) ((rA1I .vbcastImm .v).ty tyAny),
  .one ((rE3 .vextr .g .v .g).ty tyAny), .one ((rE3 .vins .v .g .g).ty tyAny),
  .one ((rA2 .vadd .v).ty tyAny).round, .one ((rA2 .vsub .v).ty tyAny).round,
  .one ((rA2 .vmul .v).ty tyAny).round,
  .one { (rE3 .vfma .v .v .v).ty tyF with hi := 0x1F }, .one { (rE3 .vfms .v .v .v).ty tyF with hi := 0x1F },
  .one ((rA2 .vmin .v).ty tyAny), .one ((rA2 .vmax .v).ty tyAny),
  .one ((rA1 .vabs .v .v).ty (tyF + tyI)).sat, .one ((rA1 .vneg .v .v).ty (tyF + tyI)).sat,
  .one (rA1 .vrcp .v .v), .one (rA1 .vrsq .v .v), .one (rA1 .vexp2 .v .v),
  .one ((rA2 .vand .v).ty tyAny), .one ((rA2 .vor .v).ty tyAny), .one ((rA2 .vxor .v).ty tyAny),
  .byK ((rA2 .vshl .v).ty (tyI + tyU)) ((rA2I .vshlImm .v).ty (tyI + tyU)),
  .byK ((rA2 .vshr .v).ty (tyI + tyU)) ((rA2I .vshrImm .v).ty (tyI + tyU)),
  .byK ((rA2 .vsar .v).ty tyI) ((rA2I .vsarImm .v).ty tyI)] ++ [
  .one ((rE3 .vcmpeq .p .v .v).ty tyAny), .one ((rE3 .vcmplt .p .v .v).ty tyAny),
  .one ((rE3 .vcmple .p .v .v).ty tyAny), .one ((rE3 .vsel .v .v .v).ty tyAny),
  .one ((rE3 .vperm .v .v .v).ty tyAny), .one ((rA2I .vrot .v).ty tyAny),
  .one { (rA1 .vredsum .g .v).ty tyAny with hi := 0x1F, lim := limRedSum },
  .one ((rA1 .vredmax .g .v).ty tyAny), .one ((rA1 .vredmin .g .v).ty tyAny),
  .one { ((rA1 .vcvt .v .v).ty tyAny).xiR (.one 0x1F) with hi := 0x1F, lim := limVcvt },
  .one (((((rE3 .vpackb .v .v .g).ty 0x30).xiR (.opt 0x03)).lims limPackb).noPred),
  .one ((((rE3 .vunpkb .v .v .g).ty 0x03).xiR (.one 0x07)).lims limUnpkb),
  .one ((((rE3 .vplane .v .vBlock .g).xiR (.one 0x1F)).lims limPlane).noPred),
  .byK { (rA1 .viota .v .zero).ty tyAny with xr := .never } { (rA1I .viotaImm .v).ty tyAny with xr := .never },
  .one (rA2 .pand .p), .one (rA2 .por .p), .one (rA2 .pxor .p), .one (rA1 .pnot .p .p),
  .byK (rA1 .pset .p .g) (rA1I .psetImm .p),
  .one (rA1 .pget .g .p), .one (rA1 .pcnt .g .p), .one (rA1 .pfirst .g .p),
  .one (rE3 .sbind .s .g .g).noPred, .one (rA1 .srel .g .s).noPred, .one (rA1 .sskip .s .g).noPred,
  .one ((rA1 .vredamax .g .v).ty tyAny)]

/-- Page 2 of R98 (R211). -/
def page2 : List Entry := [
  .one (rA1 .lease .g .zero), .one (rN .unlease), .one (rA1 .mfmt .zero .g),
  .one ((rA1 .mldw (.num 0 1) .g).xiR .upTo3),
  .one ((rA1 .mma .slotAcc .g).xiR .upTo3), .one ((rA1 .mmas .slotAcc .g).xiR .upTo3),
  .one { rN .mzero with fa := .acc }, .one { rN .macc with fa := .acc, fb := .acc },
  .one (rA1 .mscl .acc .g),
  .one ((rE3 .mrow .v .acc .g).ty 0x03),
  .one (((rA1 .msta .acc .g).ty 0x03).xiR .upTo3), .one (((rA1 .mlda .acc .g).ty 0x03).xiR .upTo3),
  .one { rN .mxch with fa := .acc, fb := .acc, xi := .one 0x03 },
  .one { rA1 .mqry .g (.num 0 1) with k := some true },
  .one { rA1 .mwt .g .nib with k := some true, xi := .ik 1, lim := limIk 0 255 }]

/-- Page 3 of R98 (R277, R278). Ordering sets: loads 0, 1, 3; stores and reductions 0, 2; atomics 0 to 3. -/
def page3 : List Entry := [
  .one (rM .ldb .g 0xB), .one (rM .ldh .g 0xB), .one (rM .ldw .g 0xB), .one (rM .ldd .g 0xB),
  .one (rM .ldbu .g 0xB), .one (rM .ldhu .g 0xB), .one (rM .ldwu .g 0xB),
  .one (rM .stb .g 0x5), .one (rM .sth .g 0x5), .one (rM .stw .g 0x5), .one (rM .std .g 0x5),
  .one (rM .vld .v 0xB), .one (rM .vst .v 0x5),
  .one ((((rE3 .vlds .v .g .g).so 0xFF 0xB).xiR (.one 0x1F)).lims limStrided),
  .one ((((rE3 .vsts .v .g .g).so 0xFF 0x5).xiR (.one 0x1F)).lims limStrided),
  .one ((((rE3 .vldx .v .g .v).so 0xFF 0xB).xiR (.one 0x03)).lims limIndexed),
  .one ((((rE3 .vstx .v .g .v).so 0xFF 0x5).xiR (.one 0x03)).lims limIndexed)] ++ [
  .one (rAtomic .aadd .g 0xF), .one (rAtomic .amin .g 0xF), .one (rAtomic .amax .g 0xF),
  .one (rAtomic .aand .g 0xF), .one (rAtomic .aor .g 0xF), .one (rAtomic .axor .g 0xF),
  .one (rAtomic .aswap .g 0xF), .one (rAtomic .acas .pair 0xF), .one (rAtomic .afadd .g 0xF (some true)),
  .one (rAtomic .redadd .g 0x5), .one (rAtomic .redfadd .g 0x5 (some true)), .one (rAtomic .redmax .g 0x5),
  .one ((rN .fence).so 0xFF 0xE), .one ((rM .mona .zero 0x1).so 0x20 0x1), .one ((rN .monw).so 0x20 0x1),
  .one ((rN .jdrain).so 0x20 0x1), .one ((rM .pref .zero 0x1).so 0x20 0x1), .one ((rN .ofence).so 0x20 0x1)]

/-- Page 4 of R98 (R323, R324). -/
def page4 : List Entry := [
  .one ((((rA1 .send (.quad 0) .g).so 0xFF 0x5).xiR (.one 0x3F)).lims limTcx),
  .one ((((rA1 .sendv .v .g).so 0xFF 0x5).xiR (.one 0x3F)).lims limTcx),
  .byK { ((rA1 .recv (.quad 4) .zero).so 0xFF 0x3).xiR (.one 0x03) with fc := .g }
    { ((rE3 .recvPool .zero .g .gNonzero).so 0xFF 0x3).xiR (.one 0x03) with k := some true },
  .byK { ((rA1 .recvv .v .zero).so 0xFF 0x3).xiR (.one 0x03) with fc := .g }
    { ((rE3 .recvvPool .zero .g .gNonzero).so 0xFF 0x3).xiR (.one 0x03) with k := some true },
  .one { (rA1 .qlen .g (.num 0 1)).so 0x20 0x1 with k := some true },
  .one ((rA1 .spawn (.quad 0) .g).so 0x20 0x5),
  .one { (rA1 .xsend .v .nib).so 0x20 0x1 with k := some true, xi := .ik 1, lim := limIk 0 1023 },
  .one ((rE3 .cpy .g .g .g).so 0xFF 0x5), .one ((rE3 .cpy2d .pair .g .g).so 0xFF 0x5),
  .one ((rA1 .cpyq .g .g).so 0x20 0x1), .one ((rA1 .gqpush .v .g).so 0xFF 0x5),
  .one ((rE3 .gqpop .v .g .g).so 0x20 0x3), .one ((rE3 .hqry .g .g .g).so 0xFF 0x5),
  .one ((rE3 .happ .g .g .g).so 0xFF 0x5),
  .one ((((rE3 .divrd .v .zero .g).so 0x20 0x1).xiR (.one 0x0F)).lims limDivrd),
  .one ((rE3 .ovl .g .g .g).so 0xFF 0x5)]

/-- Page 5 of R98 (R373). -/
def page5 : List Entry := [
  .one (rA1 .tlbw .pair .g).super, .one (rA1 .tlbi .g .g).super, .one (rA1 .tlbp .pair .g).super,
  .byK (rA1 .rlq .g .g) ((rA1I .rlqImm .g).lims (limIk 0 47)),
  .one (rA1 .rcls .g .g).super, .one ((rA1I .bmsk .g).lims (limIk 1 15)),
  .one (rA1 .fctx .g .g).super, .one (rA1 .psch (.num 0 3) .g), .one (rA1 .xsch .g .g),
  .one (rA1 .dcls .g .g).super, .one (rA1 .latq .g .g), .one (rA1 .asidg .g .g).super]

/-- Page 6 of R98 (R407). -/
def page6 : List Entry := [
  .one ({ rN .arv with fb := .num 0 15 }.so 0x20 0x1),
  .one ((rA1 .wtb .g (.num 0 15)).so 0x20 0x1), .one ((rA1 .barq .g (.num 0 15)).so 0x20 0x1),
  .one ((rA1 .prb .g (.num 0 15)).so 0x20 0x1), .one ((rA1 .gett .g .zero).so 0x20 0x1),
  .one ({ rA1I .slack .g with xi := .none, lim := limIk 0 1 }.so 0x20 0x1),
  .byK ((rA1 .validReg .zero .g).so 0x20 0x1)
    ({ rA1I .valid .zero with xr := .never, xi := .ik 1, lim := limIk 0 63 }.so 0x20 0x1),
  .one ((rN .brimx).so 0x20 0x1), .one ((rA1 .step .zero .g).so 0x20 0x1),
  .one ({ rA1I .gstep .g with xi := .none, lim := limIk 0 1 }.so 0x20 0x1),
  .one (rM .ldk .g 0xB), .one (rM .stk .g 0x5), .one (rM .adk .g 0x5), .one (rM .mrgk .g 0x5),
  .one (rM .vldk .v 0xB),
  .one (((rE3 .vadk .v .g .g).so 0xFF 0x5).xiR .upTo3),
  .one ((rN .ckmk).so 0x20 0x1), .one ((rA1 .perf .g .g).so 0x20 0x1),
  .one ((((rA1 .seqq .g .g).so 0x20 0x1).xiR (.one 0x0F)).lims limSeqq)]

/-- The entry at (page, op6) (R98). -/
def opEntry (page op6 : Nat) : Entry :=
  let l := match page with
    | 0 => page0 | 1 => page1 | 2 => page2 | 3 => page3 | 4 => page4 | 5 => page5 | 6 => page6 | _ => []
  l.getD op6 .none

/-- The row that K and, for VMOV, bit 3 of fb select. -/
def Entry.row : Entry → VUnit → Option Row
  | .none, _ => Option.none
  | .one r, _ => some r
  | .byK k0 k1, u => some (if u.k then k1 else k0)
  | .vmov c r w, u => some (if u.k then (if u.b.toNat / 8 % 2 = 1 then w else r) else c)

/-! ### Operands.Check (R96) -/

/-- First failure among two checks. -/
def orBad (x : Option BadWord) (y : Option BadWord) : Option BadWord :=
  match x with
  | some b => some b
  | none => y

/-- Fail with `b` when the condition does not hold. -/
def failUnless (ok : Bool) (b : BadWord) : Option BadWord := if ok then none else some b

/-- The word that holds the failing bit of an operand number (R96): XR where the number's low four bits alone would be
accepted, else the base word. -/
def numWord (slot : Slot) (nacc : Nat) (n : RegNo) : BadWord :=
  if n.toNat < 16 || !slot.ok nacc (n.toNat % 16) then .base else .xr

/-- XI words against the rule (R88, R89): a wrong count names the base word, an unassigned bit the XI word. -/
def XiRule.check (r : XiRule) (u : VUnit) : Option BadWord :=
  match r with
  | .none => failUnless (u.nxi == 0) BadWord.base
  | .ik most => failUnless (u.nxi.toNat ≤ most) .base
  | .upTo3 => Option.none
  | .ic => failUnless (u.nxi != 0) .base
  | .one m => orBad (failUnless (u.nxi == 1) .base) (failUnless (u.xi.toNat &&& (0x3FF ^^^ m) == 0) .xi)
  | .opt m => orBad (failUnless (u.nxi.toNat ≤ 1) .base) (failUnless (u.xi.toNat &&& (0x3FF ^^^ m) == 0) .xi)

/-- Effective codes of XQ for the row (R92). -/
def Row.hiCode (r : Row) (u : VUnit) : Nat := match u.xq with | none => r.hi0 | some q => q.hi.toNat
def Row.loCode (_ : Row) (u : VUnit) : Nat := match u.xq with | none => 0 | some q => q.lo.toNat
/-- XQ codes not accepted stand in the XQ word; a default not accepted (a bare FENCE) names the base word. -/
def Row.xqWord (u : VUnit) : BadWord := if u.xq.isSome then .xq else .base

/-- The operand checks of R88 to R94: K, XR, XI with its unassigned bits, register numbers, predicate and XQ codes, then the
limits of the description. `none` when all pass. The spec gives no order inside Operands.Check: which
of several failing words TRA names is the model's (DESIGN CHOICE, log entry 67). -/
def Row.check (r : Row) (nacc : Nat) (u : VUnit) : Option BadWord :=
  orBad (failUnless (match r.k with | none => true | some k => u.k == k) .base) <|
  orBad (match r.xr with
    | .never => failUnless (!u.xr) .xr
    | .must => failUnless u.xr .base
    | .may => none) <|
  orBad (r.xi.check u) <|
  orBad (failUnless (r.fa.ok nacc u.a.toNat) (numWord r.fa nacc u.a)) <|
  orBad (failUnless (r.fb.ok nacc u.b.toNat) (numWord r.fb nacc u.b)) <|
  orBad (failUnless (r.fc.ok nacc u.c.toNat || (!u.xr && u.c == 0)) .xr) <|
  orBad (failUnless (r.predOk || (u.pred == 0 && !u.neg)) .xq) <|
  orBad (failUnless (r.hi.testBit (r.hiCode u)) (Row.xqWord u)) <|
  orBad (failUnless (r.lo.testBit (r.loCode u)) (Row.xqWord u)) (r.lim u)

/-! ### From an instruction back to its opcode -/

/-- Page, op6 and unit of an instruction (R98); `none` for a failed fetch and for an event, which have no encoding. -/
def instrCode : Instr → Option (Nat × Nat × VUnit)
  | .nop u => some (0, 0x00, u)
  | .mov u => some (0, 0x01, u)
  | .ldi u => some (0, 0x02, u)
  | .add u => some (0, 0x03, u)
  | .addImm u => some (0, 0x03, u)
  | .sub u => some (0, 0x04, u)
  | .subImm u => some (0, 0x04, u)
  | .mul u => some (0, 0x05, u)
  | .mulImm u => some (0, 0x05, u)
  | .mulh u => some (0, 0x06, u)
  | .mulhImm u => some (0, 0x06, u)
  | .mulhu u => some (0, 0x07, u)
  | .mulhuImm u => some (0, 0x07, u)
  | .div u => some (0, 0x08, u)
  | .divImm u => some (0, 0x08, u)
  | .divu u => some (0, 0x09, u)
  | .divuImm u => some (0, 0x09, u)
  | .rem u => some (0, 0x0A, u)
  | .remImm u => some (0, 0x0A, u)
  | .remu u => some (0, 0x0B, u)
  | .remuImm u => some (0, 0x0B, u)
  | .and u => some (0, 0x0C, u)
  | .andImm u => some (0, 0x0C, u)
  | .or u => some (0, 0x0D, u)
  | .orImm u => some (0, 0x0D, u)
  | .xor u => some (0, 0x0E, u)
  | .xorImm u => some (0, 0x0E, u)
  | .andn u => some (0, 0x0F, u)
  | .andnImm u => some (0, 0x0F, u)
  | .shl u => some (0, 0x10, u)
  | .shlImm u => some (0, 0x10, u)
  | .shr u => some (0, 0x11, u)
  | .shrImm u => some (0, 0x11, u)
  | .sar u => some (0, 0x12, u)
  | .sarImm u => some (0, 0x12, u)
  | .rol u => some (0, 0x13, u)
  | .rolImm u => some (0, 0x13, u)
  | .clz u => some (0, 0x14, u)
  | .ctz u => some (0, 0x15, u)
  | .popc u => some (0, 0x16, u)
  | .min u => some (0, 0x17, u)
  | .minImm u => some (0, 0x17, u)
  | .max u => some (0, 0x18, u)
  | .maxImm u => some (0, 0x18, u)
  | .minu u => some (0, 0x19, u)
  | .minuImm u => some (0, 0x19, u)
  | .maxu u => some (0, 0x1A, u)
  | .maxuImm u => some (0, 0x1A, u)
  | .sext u => some (0, 0x1B, u)
  | .zext u => some (0, 0x1C, u)
  | .bfx u => some (0, 0x1D, u)
  | .bfi u => some (0, 0x1E, u)
  | .seq u => some (0, 0x1F, u)
  | .seqImm u => some (0, 0x1F, u)
  | .slt u => some (0, 0x20, u)
  | .sltImm u => some (0, 0x20, u)
  | .sltu u => some (0, 0x21, u)
  | .sltuImm u => some (0, 0x21, u)
  | .sel u => some (0, 0x22, u)
  | .shadd u => some (0, 0x23, u)
  | .br u => some (0, 0x24, u)
  | .cbeq u => some (0, 0x25, u)
  | .cbne u => some (0, 0x26, u)
  | .cblt u => some (0, 0x27, u)
  | .cbge u => some (0, 0x28, u)
  | .cbltu u => some (0, 0x29, u)
  | .cbgeu u => some (0, 0x2A, u)
  | .call u => some (0, 0x2B, u)
  | .callr u => some (0, 0x2C, u)
  | .ret u => some (0, 0x2D, u)
  | .jmpr u => some (0, 0x2E, u)
  | .loop u => some (0, 0x2F, u)
  | .done u => some (0, 0x30, u)
  | .trap u => some (0, 0x31, u)
  | .upret u => some (0, 0x32, u)
  | .gets u => some (0, 0x33, u)
  | .sets u => some (0, 0x34, u)
  | .eret u => some (0, 0x35, u)
  | .park u => some (0, 0x36, u)
  | .vmov u => some (1, 0x00, u)
  | .vmovStreamRead u => some (1, 0x00, u)
  | .vmovStreamWrite u => some (1, 0x00, u)
  | .vbcast u => some (1, 0x01, u)
  | .vbcastImm u => some (1, 0x01, u)
  | .vextr u => some (1, 0x02, u)
  | .vins u => some (1, 0x03, u)
  | .vadd u => some (1, 0x04, u)
  | .vsub u => some (1, 0x05, u)
  | .vmul u => some (1, 0x06, u)
  | .vfma u => some (1, 0x07, u)
  | .vfms u => some (1, 0x08, u)
  | .vmin u => some (1, 0x09, u)
  | .vmax u => some (1, 0x0A, u)
  | .vabs u => some (1, 0x0B, u)
  | .vneg u => some (1, 0x0C, u)
  | .vrcp u => some (1, 0x0D, u)
  | .vrsq u => some (1, 0x0E, u)
  | .vexp2 u => some (1, 0x0F, u)
  | .vand u => some (1, 0x10, u)
  | .vor u => some (1, 0x11, u)
  | .vxor u => some (1, 0x12, u)
  | .vshl u => some (1, 0x13, u)
  | .vshlImm u => some (1, 0x13, u)
  | .vshr u => some (1, 0x14, u)
  | .vshrImm u => some (1, 0x14, u)
  | .vsar u => some (1, 0x15, u)
  | .vsarImm u => some (1, 0x15, u)
  | .vcmpeq u => some (1, 0x16, u)
  | .vcmplt u => some (1, 0x17, u)
  | .vcmple u => some (1, 0x18, u)
  | .vsel u => some (1, 0x19, u)
  | .vperm u => some (1, 0x1A, u)
  | .vrot u => some (1, 0x1B, u)
  | .vredsum u => some (1, 0x1C, u)
  | .vredmax u => some (1, 0x1D, u)
  | .vredmin u => some (1, 0x1E, u)
  | .vcvt u => some (1, 0x1F, u)
  | .vpackb u => some (1, 0x20, u)
  | .vunpkb u => some (1, 0x21, u)
  | .vplane u => some (1, 0x22, u)
  | .viota u => some (1, 0x23, u)
  | .viotaImm u => some (1, 0x23, u)
  | .pand u => some (1, 0x24, u)
  | .por u => some (1, 0x25, u)
  | .pxor u => some (1, 0x26, u)
  | .pnot u => some (1, 0x27, u)
  | .pset u => some (1, 0x28, u)
  | .psetImm u => some (1, 0x28, u)
  | .pget u => some (1, 0x29, u)
  | .pcnt u => some (1, 0x2A, u)
  | .pfirst u => some (1, 0x2B, u)
  | .sbind u => some (1, 0x2C, u)
  | .srel u => some (1, 0x2D, u)
  | .sskip u => some (1, 0x2E, u)
  | .vredamax u => some (1, 0x2F, u)
  | .lease u => some (2, 0x00, u)
  | .unlease u => some (2, 0x01, u)
  | .mfmt u => some (2, 0x02, u)
  | .mldw u => some (2, 0x03, u)
  | .mma u => some (2, 0x04, u)
  | .mmas u => some (2, 0x05, u)
  | .mzero u => some (2, 0x06, u)
  | .macc u => some (2, 0x07, u)
  | .mscl u => some (2, 0x08, u)
  | .mrow u => some (2, 0x09, u)
  | .msta u => some (2, 0x0A, u)
  | .mlda u => some (2, 0x0B, u)
  | .mxch u => some (2, 0x0C, u)
  | .mqry u => some (2, 0x0D, u)
  | .mwt u => some (2, 0x0E, u)
  | .ldb u => some (3, 0x00, u)
  | .ldh u => some (3, 0x01, u)
  | .ldw u => some (3, 0x02, u)
  | .ldd u => some (3, 0x03, u)
  | .ldbu u => some (3, 0x04, u)
  | .ldhu u => some (3, 0x05, u)
  | .ldwu u => some (3, 0x06, u)
  | .stb u => some (3, 0x07, u)
  | .sth u => some (3, 0x08, u)
  | .stw u => some (3, 0x09, u)
  | .std u => some (3, 0x0A, u)
  | .vld u => some (3, 0x0B, u)
  | .vst u => some (3, 0x0C, u)
  | .vlds u => some (3, 0x0D, u)
  | .vsts u => some (3, 0x0E, u)
  | .vldx u => some (3, 0x0F, u)
  | .vstx u => some (3, 0x10, u)
  | .aadd u => some (3, 0x11, u)
  | .amin u => some (3, 0x12, u)
  | .amax u => some (3, 0x13, u)
  | .aand u => some (3, 0x14, u)
  | .aor u => some (3, 0x15, u)
  | .axor u => some (3, 0x16, u)
  | .aswap u => some (3, 0x17, u)
  | .acas u => some (3, 0x18, u)
  | .afadd u => some (3, 0x19, u)
  | .redadd u => some (3, 0x1A, u)
  | .redfadd u => some (3, 0x1B, u)
  | .redmax u => some (3, 0x1C, u)
  | .fence u => some (3, 0x1D, u)
  | .mona u => some (3, 0x1E, u)
  | .monw u => some (3, 0x1F, u)
  | .jdrain u => some (3, 0x20, u)
  | .pref u => some (3, 0x21, u)
  | .ofence u => some (3, 0x22, u)
  | .send u => some (4, 0x00, u)
  | .sendv u => some (4, 0x01, u)
  | .recv u => some (4, 0x02, u)
  | .recvPool u => some (4, 0x02, u)
  | .recvv u => some (4, 0x03, u)
  | .recvvPool u => some (4, 0x03, u)
  | .qlen u => some (4, 0x04, u)
  | .spawn u => some (4, 0x05, u)
  | .xsend u => some (4, 0x06, u)
  | .cpy u => some (4, 0x07, u)
  | .cpy2d u => some (4, 0x08, u)
  | .cpyq u => some (4, 0x09, u)
  | .gqpush u => some (4, 0x0A, u)
  | .gqpop u => some (4, 0x0B, u)
  | .hqry u => some (4, 0x0C, u)
  | .happ u => some (4, 0x0D, u)
  | .divrd u => some (4, 0x0E, u)
  | .ovl u => some (4, 0x0F, u)
  | .tlbw u => some (5, 0x00, u)
  | .tlbi u => some (5, 0x01, u)
  | .tlbp u => some (5, 0x02, u)
  | .rlq u => some (5, 0x03, u)
  | .rlqImm u => some (5, 0x03, u)
  | .rcls u => some (5, 0x04, u)
  | .bmsk u => some (5, 0x05, u)
  | .fctx u => some (5, 0x06, u)
  | .psch u => some (5, 0x07, u)
  | .xsch u => some (5, 0x08, u)
  | .dcls u => some (5, 0x09, u)
  | .latq u => some (5, 0x0A, u)
  | .asidg u => some (5, 0x0B, u)
  | .arv u => some (6, 0x00, u)
  | .wtb u => some (6, 0x01, u)
  | .barq u => some (6, 0x02, u)
  | .prb u => some (6, 0x03, u)
  | .gett u => some (6, 0x04, u)
  | .slack u => some (6, 0x05, u)
  | .valid u => some (6, 0x06, u)
  | .validReg u => some (6, 0x06, u)
  | .brimx u => some (6, 0x07, u)
  | .step u => some (6, 0x08, u)
  | .gstep u => some (6, 0x09, u)
  | .ldk u => some (6, 0x0A, u)
  | .stk u => some (6, 0x0B, u)
  | .adk u => some (6, 0x0C, u)
  | .mrgk u => some (6, 0x0D, u)
  | .vldk u => some (6, 0x0E, u)
  | .vadk u => some (6, 0x0F, u)
  | .ckmk u => some (6, 0x10, u)
  | .perf u => some (6, 0x11, u)
  | .seqq u => some (6, 0x12, u)
  | .illegalInstruction _ => none
  | .overlayTrap _ => none
  | .instructionFetchTrap _ => none
  | .moduleReset => none
  | .functionReady => none
  | .functionLost => none
  | .clockLockGained => none
  | .clockLockLost => none
  | .ptpMessage => none
  | .crownBudgetDivision => none
  | .junctionThreshold105 => none
  | .junctionThreshold115 => none
  | .coolantFlowAlarm => none
  | .coolantFlowReturn => none
  | .powerDomainLoss => none
  | .managementRegisterWrite => none
  | .doorbell => none
  | .queueCreate => none
  | .queueDestroy => none
  | .queueDestroyAndBrim => none
  | .queueClearError => none
  | .partitionEnable => none
  | .partitionDisable => none
  | .stridePass => none
  | .launchPacket => none
  | .launchiPacket => none
  | .loopPacket => none
  | .endloopPacket => none
  | .ifPacket => none
  | .waitsigPacket => none
  | .conditionReevaluation => none
  | .signalPacket => none
  | .writePacket => none
  | .copyPacket => none
  | .fencePacket => none
  | .stepcPacket => none
  | .timewaitPacket => none
  | .timewaitExpiry => none
  | .gangRelease => none
  | .tileRelease => none
  | .gangCompletion => none
  | .fatalReport => none
  | .forcedBrimWrite => none
  | .helhalHeartbeat => none
  | .commandProcessorHung => none
  | .mailboxRead => none
  | .mailboxStep => none
  | .mailboxAnswer => none
  | .mailboxRestart => none
  | .attest => none
  | .hostPageAnswer => none
  | .gangSwitchAnnouncement => none
  | .gangSwitch => none
  | .saveTile => none
  | .gangResume => none
  | .brimTime => none
  | .deadlineTime => none
  | .taskStart => none
  | .resultLanding => none
  | .parkWakeTime => none
  | .messageAdmission => none
  | .spawnAdmission => none
  | .pageAnswerNotice => none
  | .remotePoolAccess => none
  | .homeSliceRequest => none
  | .cxlPortRequest => none
  | .journalAcknowledgement => none
  | .refusalReceipt => none
  | .asyncTrapDelivery => none
  | .copyToken => none
  | .heronAppendWrite => none
  | .heronScan => none
  | .heronToken => none
  | .arrayCommandStart => none
  | .arrayCommandCompletion => none
  | .columnResidueMismatch => none
  | .leaseEnd => none
  | .exchangeStart => none
  | .exchangeEnd => none
  | .barrierWave => none
  | .domainCompletion => none
  | .probeVisit => none
  | .intervalTimerExpiry => none
  | .dirtyCountLimit => none
  | .arrivalLogThreshold => none
  | .stagingAcknowledged => none
  | .commitBoundary => none
  | .fullBoundary => none
  | .logRecordAck => none
  | .egressHoldExpiry => none
  | .niInjection => none
  | .packetHop => none
  | .retransmissionTimeout => none
  | .class6RetransmissionTimeout => none
  | .channelIdleClose => none
  | .coreHeartbeat => none
  | .watchdogExpiry => none
  | .tscWatchdogExpiry => none
  | .detectionEvent => none
  | .optimiserCoreFailure => none
  | .millinerRepair => none
  | .causewayUpdate => none
  | .replayEnd => none
  | .backgroundRetest => none
  | .debugHaltRequest => none
  | .debugHaltRelease => none
  | .debuggerWrite => none
  | .flitTransmit => none
  | .flitReceive => none
  | .nakReceive => none
  | .laneFailure => none
  | .retrainComplete => none
  | .belvisFrameReceive => none
  | .belvisResendTimeout => none
  | .gradientPushArrival => none
  | .popAcknowledgement => none
  | .optimiserCompletionNotice => none
  | .sweepVisit => none
  | .messageAcknowledgement => none
  | .copyDataArrival => none
  | .cxlMemAccess => none
  | .fullReTest => none
  | .saveIncompleteResolution => none

end Sys2Proof
end

