-- ==== Sys2Proof/WellFormed.lean ====
section
/-! DEFINITION. Well-formed instructions: those that some word sequence of the manual encodes (R81 to R94). -/

namespace Sys2Proof

/-- The unit's fields fit the prefixes it carries (R84 to R87): an XP on pages 1 to 6, no operand number above 15
and no operand c without XR, an XI payload of ten bits a word, at most four prefixes. -/
def VUnit.fits (page : Nat) (u : VUnit) : Bool :=
  (page == 0 || u.xp) && (u.xr || (u.a.toNat < 16 && u.b.toNat < 16 && u.c == 0)) &&
    u.xi.toNat < 2 ^ (10 * u.nxi.toNat) && u.words ≤ 5

/-- An instruction is well formed when its unit fits its prefixes, the opcode map gives that instruction for it, and
the operand checks of R88 to R94 pass with all eight accumulators present. A failed fetch and an event have no
operands to check. -/
def WellFormed (i : Instr) : Bool :=
  match instrCode i with
  | none => true
  | some (page, op6, u) =>
    u.fits page &&
      match (opEntry page op6).row u with
      | none => false
      | some r => (r.ins u == i) && (r.check 8 u).isNone

end Sys2Proof
end

