-- ==== Sys2Proof/Decode.lean ====
section
/-! DEFINITION. Decoding (R81 to R97), total on any bytes and rejecting by name, and after it the encoder. -/

namespace Sys2Proof

/-! ### Reading a unit's words (R84, R96) -/

/-- A unit as its words spell it, before the opcode map is consulted. -/
structure RawUnit where
  page : Nat
  op6 : Nat
  u : VUnit
  deriving DecidableEq, Repr

/-- What reading the words of a unit gives. -/
inductive Parsed where
  /-- a word at this offset lies at or above XB -/
  | overlay (a : Word)
  /-- the word at this offset breaks the prefix rules or names page 7 or above -/
  | illegal (a : Word)
  /-- the unit -/
  | unit (r : RawUnit)
  deriving DecidableEq, Repr

/-- What the prefixes read so far hold. -/
structure PrefixState where
  n : Nat := 0
  last : Int := -1
  xp : Option Nat := none
  xq : Option Quals := none
  xr : Option Nat := none
  nxi : Nat := 0
  xi : Nat := 0
  deriving DecidableEq, Repr

def bitsOf (w hi lo : Nat) : Nat := w / 2 ^ lo % 2 ^ (hi + 1 - lo)

/-- The payload of an XQ word (R83). -/
def qualsOf (p : Nat) : Quals :=
  { pred := BitVec.ofNat 3 (bitsOf p 9 7), neg := bitsOf p 6 6 == 1,
    hi := BitVec.ofNat 3 (bitsOf p 5 3), lo := BitVec.ofNat 3 (bitsOf p 2 0) }

/-- Rank of a prefix kind in the order XP, XQ, XR, XI (R84). -/
def prefixRank (kind : Nat) : Int := match kind with | 2 => 0 | 3 => 1 | 1 => 2 | _ => 3

/-- Take in one prefix word; `none` when it breaks a rule of R84 or names page 7 or above. -/
def PrefixState.take (p : PrefixState) (w : Nat) : Option PrefixState :=
  let kind := bitsOf w 11 10
  let pay := bitsOf w 9 0
  let k := prefixRank kind
  if p.n = 4 then none
  else if k < p.last ∨ (k = p.last ∧ k ≠ 3) then none
  else if k = 3 ∧ p.nxi = 3 then none
  else if k = 0 ∧ 7 ≤ pay then none
  else
    let q := { p with n := p.n + 1, last := k }
    some (match kind with
      | 2 => { q with xp := some pay }
      | 3 => { q with xq := some (qualsOf pay) }
      | 1 => { q with xr := some pay }
      | _ => { q with nxi := p.nxi + 1, xi := p.xi * 1024 + pay })

/-- The unit that a base word completes (R82, R86). -/
def PrefixState.finish (p : PrefixState) (w : Nat) : RawUnit :=
  let x := p.xr.getD 0
  { page := p.xp.getD 0, op6 := bitsOf w 15 10,
    u := { xp := p.xp.isSome, xq := p.xq, xr := p.xr.isSome,
           nxi := BitVec.ofNat 2 p.nxi, xi := BitVec.ofNat 30 p.xi,
           a := BitVec.ofNat 6 (bitsOf x 9 8 * 16 + bitsOf w 9 6),
           b := BitVec.ofNat 6 (bitsOf x 7 6 * 16 + bitsOf w 5 2),
           c := BitVec.ofNat 6 (bitsOf x 5 0),
           k := bitsOf w 1 1 == 1, sw := bitsOf w 0 0 == 1 } }

/-- Read words from `pc` upward, `fuel` at most (R96): XB is checked before each word, as unsigned. -/
def parseUnit (fetch : Nat → IWord) (xb : Nat) (pc : Word) : Nat → PrefixState → Parsed
  | 0, p => .illegal (pc + BitVec.ofNat 64 (2 * p.n))
  | fuel + 1, p =>
    let a := pc + BitVec.ofNat 64 (2 * p.n)
    if xb ≤ a.toNat then .overlay a
    else
      let w := (fetch a.toNat).toNat
      if bitsOf w 15 12 = 15 then
        match p.take w with
        | none => .illegal a
        | some q => parseUnit fetch xb pc fuel q
      else .unit (p.finish w)

/-! ### The instruction of a unit (R96) -/

/-- What the checks of decoding depend on besides the words: the mode in force and the accumulator count. -/
structure DecEnv where
  supervisor : Bool
  nacc : Nat
  deriving DecidableEq, Repr

/-- Number of words before the word that holds the failing field (R96). -/
def BadWord.index (u : VUnit) : BadWord → Nat
  | .xq => u.xp.toNat
  | .xr => u.xp.toNat + u.xq.isSome.toNat
  | .xi => u.xp.toNat + u.xq.isSome.toNat + u.xr.toNat
  | .base => u.words - 1

/-- SETS on a register that is read-only for the mode in force is an illegal instruction of decoding (R144). -/
def setsReadOnly (supervisor : Bool) (i : Instr) : Bool :=
  match i with
  | .sets u => match sysAccess u.x with
    | some (ur, uw, sw) => if supervisor then !sw else ur && !uw
    | none => false
  | _ => false

/-- The instruction at `pc` that a raw unit stands for (R96): an unassigned op6 names the base word; the operand
checks of a supervisor-only unit are not reached in user mode, where the unit's meaning takes the privileged trap. -/
def RawUnit.instr (env : DecEnv) (pc : Word) (r : RawUnit) : Instr :=
  let at_ (n : Nat) : Instr := .illegalInstruction (pc + BitVec.ofNat 64 (2 * n))
  match (opEntry r.page r.op6).row r.u with
  | none => at_ (r.u.words - 1)
  | some row =>
    if row.sup && !env.supervisor then row.ins r.u
    else match row.check env.nacc r.u with
      | some b => at_ (b.index r.u)
      | none => if setsReadOnly env.supervisor (row.ins r.u) then at_ (BadWord.xi.index r.u) else row.ins r.u

/-- Decode the unit at `pc` (R96, R97): an odd pc is an instruction-fetch trap, before decoding. -/
def decodeAt (env : DecEnv) (fetch : Nat → IWord) (xb : Nat) (pc : Word) : Instr :=
  if pc.toNat % 2 = 1 then .instructionFetchTrap pc
  else match parseUnit fetch xb pc 5 {} with
    | .overlay a => .overlayTrap a
    | .illegal a => .illegalInstruction a
    | .unit r => r.instr env pc

/-- The 16-bit word at an offset of a byte list, little-endian (R4); bytes past the end read 0. -/
def wordAt (bytes : List Byte) (a : Nat) : IWord :=
  (bytes.getD (a + 1) 0) ++ (bytes.getD a 0)

/-- Decode the unit that a byte list begins with, in supervisor mode with eight accumulators. -/
def decode (bytes : List Byte) : Instr :=
  decodeAt { supervisor := true, nacc := 8 } (wordAt bytes) (2 ^ 21) 0

/-! ### The encoder -/

/-- A prefix word of a kind (R83). -/
def prefixWord (kind payload : Nat) : IWord := BitVec.ofNat 16 (0xF000 + kind * 1024 + payload % 1024)

def qualsPayload (q : Quals) : Nat := q.pred.toNat * 128 + q.neg.toNat * 64 + q.hi.toNat * 8 + q.lo.toNat

/-- The XI words of a payload of `n` words, the most significant first (R85). -/
def xiWords (xi : Nat) : Nat → List IWord
  | 0 => []
  | n + 1 => prefixWord 0 (xi / 1024 ^ n) :: xiWords xi n

/-- The base word (R82). -/
def baseWord (op6 : Nat) (u : VUnit) : IWord :=
  BitVec.ofNat 16 (op6 * 1024 + u.a.toNat % 16 * 64 + u.b.toNat % 16 * 4 + u.k.toNat * 2 + u.sw.toNat)

/-- The words of a unit in ascending order (R81 to R86). -/
def unitWords (page op6 : Nat) (u : VUnit) : List IWord :=
  (if u.xp then [prefixWord 2 page] else []) ++
  (match u.xq with | none => [] | some q => [prefixWord 3 (qualsPayload q)]) ++
  (if u.xr then [prefixWord 1 (u.a.toNat / 16 * 256 + u.b.toNat / 16 * 64 + u.c.toNat)] else []) ++
  xiWords u.xi.toNat u.nxi.toNat ++ [baseWord op6 u]

/-- The words of an instruction; an event and a failed fetch have none. -/
def encode (i : Instr) : List IWord :=
  match instrCode i with
  | none => []
  | some (page, op6, u) => unitWords page op6 u

/-- Words as the pool holds them, little-endian (R4, R81). -/
def bytesOfWords : List IWord → List Byte
  | [] => []
  | w :: ws => w.extractLsb' 0 8 :: w.extractLsb' 8 8 :: bytesOfWords ws

/-! ### The opcode table's numbering -/

/-- The words of an opcode-table value (entry 6): one base word, or a prefix word, which stands first in memory, and the base
word. spec/opcode_table.json writes the prefix in the upper half; a value with the prefix in its lower half means the same
words. -/
def tableWords (nbits w : Nat) : List IWord :=
  let lo := w % 65536
  let hi := w / 65536 % 65536
  if nbits ≤ 16 then [BitVec.ofNat 16 lo]
  else if lo / 4096 = 15 then [BitVec.ofNat 16 lo, BitVec.ofNat 16 hi]
  else [BitVec.ofNat 16 hi, BitVec.ofNat 16 lo]

/-- The instruction the decoder reads from an instruction whose bits are `w` as the opcode table numbers them. -/
def decodeTableWord (nbits w : Nat) : Option Instr :=
  let i := decode (bytesOfWords (tableWords nbits w))
  match i with
  | .illegalInstruction _ | .overlayTrap _ | .instructionFetchTrap _ => none
  | _ => some i

end Sys2Proof
end

