-- ==== Sys2Proof/Machine/State.lean ====
section
/-! DEFINITION. The state of the module as plain data: every core with its contexts, pool, queues, tables and
counters; the clusters; the rim; the command processor; the management plane. Reset values are those of the state
cards (R139, R145, R208, R245, R297, R313, R356, R362 to R369, R403, R452) and of the registers' field maps. Faults
and refusals are named at the end. -/

namespace Sys2Proof.Machine

/-- A memory: address and byte, addresses strictly rising, no entry equal to what an unlisted address reads as
(zero: R47 and R245 for pools, R40 for device memory, entry 2 for host memory). -/
abbrev Mem := List Host.Cell

/-- A table by number; a number that is not listed has the table's default. -/
abbrev Tbl (α : Type) := List (Nat × α)

/-! ### A context -/

/-- What a waiting context waits for (R55, R68, R235, R256, R259, R282, R325, R375, R385, R387). -/
inductive Wait where
  /-- these outstanding results (a read of their register, a switch marker, an acquire hold) -/
  | results (ids : List Nat)
  /-- FENCE of a kind (1 acq, 2 rel, 3 ar) and scope -/
  | fence (kind scope : Nat)
  | jdrain
  | ofence
  /-- an own-pool release at a scope (R283) -/
  | release (scope : Nat)
  /-- PSCH, LDK or VLDK whose bytes have not arrived: its outstanding result, the length of its unit (R385, R416), and the other
  results that a unit with S = 1 waits for (R55) -/
  | image (id len : Nat) (also : List Nat)
  /-- a fetch from a range under OVL's write lock (R339) -/
  | overlayLock
  /-- WTB on a domain, with its destination and the length of its unit -/
  | wtb (n : Nat) (a : RegNo) (len : Nat)
  /-- MONW, with the length of its unit -/
  | monw (len : Nat)
  /-- PARK with its wake time, 0 for none, and the length of its unit -/
  | park (wake : Word) (len : Nat)
  /-- an empty receive queue of a class -/
  | message (cls : Nat)
  /-- a translation: the TSC request slot -/
  | xlate (slot : Nat)
  /-- a fifth miss of the tile (R316) -/
  | misses
  /-- retransmission buffer -/
  | rtx (at_ : Nat)
  /-- channel entries for packets of a class to these peers (R370) -/
  | channel (peers : List Nat) (cls : Nat)
  | copyQueue
  | heron
  /-- the limits of R282 -/
  | loads8
  | loads32
  /-- gradient window of a queue -/
  | window (q wm : Nat)
  /-- TLBP OP 1 on an empty request queue (R375) -/
  | requests
  /-- DCLS until the slices have acknowledged (R387), with the length of its unit -/
  | slices (len : Nat)
  deriving DecidableEq, Repr

/-- What a context does (R53, R55, R58, R428). -/
inductive RunState where
  /-- holds no task -/
  | idle
  /-- may issue -/
  | ready
  /-- its unit at pc did not issue for an interlock (R151); it keeps issue -/
  | stalled
  | waiting (w : Wait)
  /-- after DONE or BRIMX, waiting under R53; true after BRIMX -/
  | ending (brimx : Bool)
  /-- stopped by the fatal path (R428), by D (R72) or by B without a wrap-up entry (R67) -/
  | stopped (fatal : Bool)
  deriving DecidableEq, Repr

/-- Which limit an outstanding result counts against (R282, R260). -/
inductive OutKind where
  /-- loads of spaces 10 and 11 and every value-returning atomic: limit 8 -/
  | dev
  /-- loads of space 01: limit 32 -/
  | pool
  /-- a gather of spaces 01 and 10 or 11: both limits -/
  | both
  | copy | heron | recv | other
  deriving DecidableEq, Repr

/-- How an outstanding result becomes register values when it lands. -/
inductive Land where
  /-- `n` bytes, sign-extended or zero-extended, to a general register -/
  | scalar (r : RegNo) (n : Nat) (signed : Bool)
  /-- bytes of a vector register; bytes not collected keep their value -/
  | vec (r : RegNo)
  /-- one stamped word of an address, decayed against the step G -/
  | stamp (r : RegNo) (g : BitVec 24) (addr : Word)
  /-- 32 stamped words, the enabled lanes given -/
  | vstamp (r : RegNo) (g : BitVec 24) (lanes : BitVec 32) (addr : Word)
  /-- values fixed when it lands: general registers, and a vector register with the mask of bytes written -/
  | fixed (gs : List (RegNo × Word)) (v : Option (RegNo × Vec × BitVec 128))
  /-- the gang step, as the step unit holds it (R414) -/
  | gst (r : RegNo)
  /-- the result of a probe of a domain (R409) -/
  | probe (n : Nat)
  /-- PSCH of a schedule: 256 bytes, checked and installed (R385) -/
  | schedule (n : Nat) (addr : Word)
  deriving DecidableEq, Repr

/-- An outstanding result (R56): the registers it will write, how, and what has arrived. -/
structure Outs where
  id : Nat
  gs : List RegNo
  vs : List RegNo
  how : Land
  kind : OutKind
  /-- parts that have not arrived -/
  need : Nat
  /-- bytes that have arrived, by their place in the result -/
  got : List (Nat × Byte)
  /-- the unit is an acquire of this scope (R256, R264) -/
  acq : Option Nat
  /-- registers g1 or g2 that a diversion took over: their value is discarded (R68, R149) -/
  dropped : List RegNo
  /-- range-lock entry that clears when it lands (RECV pool form, R329) -/
  lock : Option Nat := none
  /-- the refusal of a part, with the task serial of its unit, raised when the result has landed (R233, R427) -/
  refused : Option ((BitVec 8 × Word) × BitVec 16) := none
  deriving DecidableEq, Repr

/-- A pending asynchronous trap (R427): cause, TRA and the journal entry that JIX names. -/
structure Pending where
  cause : BitVec 8
  tra : Word
  jix : Option (BitVec 6)
  deriving DecidableEq, Repr

/-- One hardware context (R134, R139, R144, R145, R297, R427, R343). v registers are in the pool's context area. -/
structure Ctx where
  pc : Word
  g : Vector Word 64
  p : Vector (BitVec 32) 8
  s : Vector (BitVec 128) 8
  run : RunState
  /-- diverted at brim time (R71) -/
  diverted : Bool
  outs : List Outs
  /-- scope of a FENCE.rel not yet followed by a write (R259) -/
  relNext : Option Nat
  tth : BitVec 32
  ups : Word
  trc : BitVec 16
  tra : Word
  /-- exception pc; reads [20:0] (R145), the rest kept for fatal reports -/
  epc : Word
  supervisor : Bool
  sst : Word
  sepc : Word
  sec : Word
  svec : Word
  asn : Word
  psd : Word
  hbc : Word
  mln : BitVec 14
  marm : Bool
  mchg : Bool
  tsn : BitVec 16
  apnd : List Pending
  ocnt : Nat
  /-- the page answer that UPS names was asked for before a diversion: its notice is discarded (R69, R429) -/
  upGone : Bool
  deriving DecidableEq, Repr

/-! ### Packets, queues and engines of a tile -/

/-- The atomics of R292. -/
inductive AtomOp where
  | add | min | max | and | or | xor | swap | cas | fadd
  deriving DecidableEq, Repr
/-- The reductions of R294. -/
inductive RedOp where
  | add | fadd | max
  deriving DecidableEq, Repr

/-- Who owns a location (R246). `bank` is a home slice reached at a Heron unit of its stack (256 times slice plus unit, R238), whose
accesses pass the unit's bank queue (R313); it is the same owner as the slice. `cpx` is the command processor complex, which only
sends; `belvis` a Belvis port, which takes the lines of copies that name a window (R241, R335), an address there being 2^48 times the
module plus the address. -/
inductive Owner where
  | pool (t : Nat) | slice (k : Nat) | port (p : Nat) | bank (k : Nat) | cpx | belvis (p : Nat)
  /-- a field's Milliner, and the routers of a physical cluster, between which Causeway updates go (R358) -/
  | milliner (f : Nat) | router (p : Nat)
  deriving DecidableEq, Repr

/-- What a class 6 request, or an arriving space 01 write, asks its owner to do. Addresses are offsets in the
owner's pool, device physical or host physical addresses. -/
inductive MemOp where
  /-- read `z` bytes at each address, the first number; the second is the place of the bytes in the result -/
  | read (els : List (Nat × Nat)) (z : Nat)
  | write (els : List (Nat × List Byte))
  | atomic (op : AtomOp) (w32 : Bool) (addr : Nat) (x y : Word)
  | reduce (op : RedOp) (w32 : Bool) (addr : Nat) (x : Word)
  /-- ADK, VADK: each word's address, its place in bytes from the unit's address, and the value -/
  | stampAdd (els : List (Nat × Nat × BitVec 32)) (cls : BitVec 4) (g : BitVec 24)
  | stampMerge (addr : Nat) (u : Word) (g : BitVec 24)
  | push (q typ wm rank : Nat) (rec : Vec)
  | pop (q : Nat)
  /-- HAPP: the two rows of a position at a Heron unit; the position, for the order of R351 -/
  | append (unit pos base : Nat) (rows : List (Nat × List Byte))
  /-- HQRY: the query of the tile, the page's physical base, its number k, and the unit (R346) -/
  | scan (query page k unit : Nat)
  /-- DCLS: one decay entry of a partition's pending copy (R387) -/
  | decay (prt c k : Nat) (v : BitVec 32)
  deriving DecidableEq, Repr

/-- A request to an owner. -/
structure Req where
  id : Nat
  src : Nat
  ctx : Nat
  tsn : BitVec 16
  op : MemOp
  owner : Owner
  /-- the journal entry it belongs to -/
  jrn : Option Nat
  /-- the outstanding result it serves -/
  out : Option Nat
  /-- the program's address of its first element, for a refusal -/
  addr : Word
  seq : Nat
  /-- release scope that the NI holds it for (R255) -/
  rel : Option Nat
  /-- issued under write translation with partition (R342, R474) -/
  part : Nat
  /-- it names a Heron-striped page, so that it passes a bank queue (R313) -/
  heron : Bool := false
  /-- addresses of the elements that it reads from stable pages (R239) -/
  stable : List Nat := []
  /-- the copy whose line it moves (R335) -/
  line : Option Nat := none
  deriving DecidableEq, Repr

/-- An owner's answer. -/
structure Reply where
  jrn : Option Nat
  out : Option Nat
  ctx : Nat
  tsn : BitVec 16
  data : List (Nat × Byte)
  /-- values fixed by the owner for a pop: general value and record -/
  pop : Option (Word × Vec)
  /-- cause and address of a refusal -/
  refused : Option (BitVec 8 × Word)
  seq : Nat
  deriving DecidableEq, Repr

/-- A message of classes 1 to 5 (R302, R308, R309). -/
structure Msg where
  cls : Nat
  long : Bool
  payload : List Byte
  src : Nat
  tcx : Nat
  spawn : Bool
  anum : BitVec 32
  seq : Nat
  ctx : Nat
  tsn : BitVec 16
  deriving DecidableEq, Repr

/-- A class 1 page-answer notice (R376, R377). -/
structure Notice where
  ctx : Nat
  tag : BitVec 16
  ans : BitVec 8
  asid : BitVec 12
  gen : BitVec 4
  /-- arrival number (R307) -/
  anum : BitVec 32 := 0
  deriving DecidableEq, Repr

/-- What a class 0 packet of the command processor brings a tile (R302). -/
inductive SysMsg where
  /-- the barrier masks of a tile of a launch (R47): MEM, DRN -/
  | masks (g : Nat) (mem drn : BitVec 16)
  /-- release of a launch (R48) -/
  | release (g : Nat)
  /-- a gang switch announced for a time (R76) -/
  | switchAt (g : Nat) (t : Word)
  /-- a forced brim: the new B and D (R392) -/
  | brim (b d : Word)
  deriving DecidableEq, Repr

/-- What a packet carries. -/
inductive Body where
  | msg (m : Msg)
  | req (r : Req)
  | reply (r : Reply)
  | notice (n : Notice)
  /-- acknowledgement of a class 1 to 5 message by number, with a refusal or not (R328, R311) -/
  | ack (cls seq : Nat) (refused : Bool)
  | popAck (q : Nat)
  /-- an optimiser command is complete; the core that popped it and the identity that bounds that core's writes, which are
  applied before the notice leaves (R266, R343) -/
  | optDone (ctx : Nat) (tsn : BitVec 16) (by_ : Nat × Nat)
  | close (cls : Nat)
  /-- an XSEND write (R334) -/
  | xwrite (off : Nat) (bytes : List Byte) (ctx : Nat) (tsn : BitVec 16)
  /-- class 0 (R302) -/
  | sys (m : SysMsg)
  /-- class 7: a record of the arrival log, by its identity, to the buddy (R439) -/
  | log (rid : Nat)
  /-- class 7: the checkpoint copies of a boundary, to the buddy (R435, R437) -/
  | stage
  /-- class 7: the new entries of a Causeway update, to the routers of a physical cluster (R358) -/
  | causeway
  deriving DecidableEq, Repr

/-- How far a packet has come (R306, R355, R432, R457). -/
inductive Stage where
  /-- waiting at the source for its class's turn -/
  | queued
  /-- in the egress hold -/
  | held
  /-- at a router -/
  | hop (x y : Int)
  /-- waiting for a flit of a UCIe module, towards the rim or not -/
  | link (m : Nat) (toRim : Bool)
  /-- in a flit -/
  | flit (m : Nat) (toRim : Bool)
  | arrived
  deriving DecidableEq, Repr

/-- A packet in flight. `src` and `dst` are owners; `mask` the barrier domains its bytes count in (R397). -/
structure Pkt where
  id : Nat
  src : Owner
  dst : Owner
  cls : Nat
  seq : Nat
  body : Body
  stage : Stage
  pcn : Nat
  mask : BitVec 16
  bytes : Nat
  rel : Option Nat
  deriving DecidableEq, Repr

/-- A journal entry (R251): the parts not yet acknowledged. -/
structure JEntry where
  idx : BitVec 6
  id : Nat
  ctx : Nat
  tsn : BitVec 16
  parts : Nat
  /-- a value-returning atomic leaves when its result lands (R293) -/
  out : Option Nat
  refused : Option (BitVec 8 × Word)
  deriving DecidableEq, Repr

/-- A range lock (R364): kind, holder and the 32-byte units. -/
structure Lock where
  wl : Bool
  src : BitVec 6
  last : BitVec 16
  first : BitVec 16
  deriving DecidableEq, Repr

/-- Where a copy stands with its next line: to be read, or the line's read or write request, by identity, on its way. -/
inductive LineStage where
  | idle
  | reading (id : Nat)
  | writing (id : Nat)
  deriving DecidableEq, Repr

/-- A copy, CPY2D or OVL in the copy queue (R335 to R339). -/
structure CopyOp where
  idx : Nat
  id : Nat
  ctx : Nat
  tsn : BitVec 16
  tok : RegNo
  dst : Word
  src : Word
  rows : Nat
  len : Nat
  dstep : Int
  sstep : Int
  scope : Nat
  rel : Bool
  ovl : Bool
  /-- 128-byte lines moved -/
  lines : Nat
  /-- token status; 0 while running -/
  st : Nat
  /-- TSC request slot it waits for -/
  slot : Option Nat
  /-- tag of the host page request it waits for -/
  tag : Option (BitVec 16)
  stage : LineStage := .idle
  /-- an earlier operation's lock covered its ranges at its issue (R263) -/
  waits : Bool := false
  deriving DecidableEq, Repr

/-- A Heron query (R346). -/
structure Query where
  idx : Nat
  id : Nat
  ctx : Nat
  tok : RegNo
  /-- the head's base address -/
  base : Word
  hor : Nat
  dim : Nat
  scl : BitVec 32
  q : List Byte
  k0 : Nat
  area : Nat
  /-- records expected and still to be written -/
  total : Nat
  left : Nat
  emask : BitVec 32
  /-- refused at a home slice -/
  refused : Bool
  scope : Nat
  /-- an earlier operation's lock covered its result area at its issue (R263) -/
  waits : Bool := false
  /-- pages whose scans it has not sent, because it waits: number, owner and physical base -/
  pages : List (Nat × Owner × Nat) := []
  /-- release scope that the NI holds its scans for (R255) -/
  rel : Option Nat := none
  deriving DecidableEq, Repr

/-- Accumulator status (R141). -/
structure AccSt where
  vld : Bool
  drt : Bool
  ifl : Bool
  own : BitVec 3
  deriving DecidableEq, Repr

/-- A weight slot (R208, R209): 0 empty, 1 loaded, 2 stale; format; offset; and the array's copy of the image while
loaded. -/
structure WSlot where
  st : BitVec 2
  fmt : BitVec 3
  off : BitVec 21
  img : List Byte
  deriving DecidableEq, Repr

/-- Array commands (R203, R215 to R218). -/
inductive ACmd where
  | mfmt (af : Bool) (wf : BitVec 3)
  | mldw (w : Bool) (off : Nat) (fmt : BitVec 3)
  | mma (d : Nat) (off : Nat) (w : Bool) (l16 : Bool) (keep : Bool)
  | mzero (d : Nat)
  | macc (d s : Nat)
  | mscl (d : Nat) (f : BitVec 32)
  deriving DecidableEq, Repr

/-- A command in a tile's array command queue (R204). -/
structure ACmdEntry where
  seq : BitVec 8
  ctx : Nat
  tsn : BitVec 16
  cmd : ACmd
  /-- index of its lock in the range-lock table -/
  lock : Option Nat
  started : Bool
  /-- the activation operand held from the start to the end of the drain (R433), and the weights -/
  held : List Byte
  wt : WSlot
  /-- the tile's unit count at its acceptance, by which a log record names it (entry 21) -/
  count : Word := 0
  deriving DecidableEq, Repr

/-- A channel-table entry (R370). -/
structure Chan where
  peer : Nat
  cls : Nat
  next : BitVec 24
  una : BitVec 24
  deriving DecidableEq, Repr

/-! ### The parts of a core that a checkpoint carries -/

/-- Per-tile system registers and what release writes from the record (R145, R147, R463). -/
structure LaunchRegs where
  tid : BitVec 16
  xb : BitVec 21
  rank : Nat
  gxo : Nat
  gyo : Nat
  gw : Nat
  gh : Nat
  pres : BitVec 8
  bw : BitVec 8
  bh : BitVec 8
  part : Word
  ord : Bool
  dln : Word
  brt : Word
  vwd : Word
  steps : Word
  lscl : BitVec 32
  upv : Word
  trv : BitVec 21
  jix : Word
  tent : Nat
  bent : Nat
  ctxl : BitVec 8
  asid : BitVec 12
  pasid : BitVec 20
  /-- the partition of the gang's queue -/
  prt : Nat
  dvs : Nat
  ivl : Nat
  /-- the launch this tile runs, if any -/
  gang : Option Nat
  /-- released to its contexts (R48) -/
  started : Bool
  brimFired : Bool
  dlnFired : Bool
  deriving DecidableEq, Repr

/-- Accumulator status and the array's per-position state, with its shadow (R141, R208, R222). -/
structure ArrayPart where
  accs : Vector AccSt 8
  af : Bool
  wf : BitVec 3
  /-- format in force after every MFMT already issued (R216) -/
  afNext : Bool
  wfNext : BitVec 3
  slots : Vector WSlot 2
  sqa : BitVec 8
  sqd : BitVec 8
  req : Bool
  queue : List ACmdEntry
  /-- MXCH rendezvous entry: d, s, n -/
  mx : Option (Nat × Nat × Nat)
  /-- the context that issued it, with its task serial -/
  mxBy : Nat × BitVec 16
  /-- this position's row of the four schedules (R367): entry (n, f) at 16n + f is 16q + g; the identity transpose where not
  listed -/
  rows : Tbl Nat
  deriving DecidableEq, Repr

/-- Barriers, steps and exchange phase (R333, R365, R368, R396, R399, R413). -/
structure SyncPart where
  mem : BitVec 16
  drn : BitVec 16
  memP : BitVec 16
  drnP : BitVec 16
  arr : BitVec 16
  /-- arrivals that the NI holds from the tree until R255 holds: domain, context and the identity that bounds its
  earlier accesses (R409) -/
  arvs : List (Nat × Nat × Nat)
  epo : BitVec 16
  pbc : Vector (BitVec 40) 16
  /-- PBC changed since the tree last sampled it (R398) -/
  pch : BitVec 16
  wcol : BitVec 16
  stq : Bool
  ovt : Bool
  /-- what this tile's arrival on domain 0 carries (R413) -/
  stqC : Bool
  ovtC : Bool
  xph : Bool
  nxs : Nat
  xtb : Nat
  xcnt : Nat
  deriving DecidableEq, Repr

/-- The NI (R251, R307 to R313, R328, R343, R356, R370, R401). -/
structure NiPart where
  journal : List JEntry
  /-- requests not yet answered, for retransmission (R485) -/
  reqs : List Req
  rtx : List Pkt
  /-- results of the last reads and atomics of other tiles executed here: source, number, whether a copy's line, result (R293, R371,
  R485) -/
  results : List (Nat × Nat × Bool × Reply)
  send : List Chan
  recv : List Chan
  /-- next class 6 sequence number -/
  seq6 : Nat
  anum : BitVec 32
  dov : Bool
  win : Vector (BitVec 11 × BitVec 5) 8
  /-- divert slots, by context and slot, that software has written since the NI last did: what they hold is unspecified (R309) -/
  swrote : List (Nat × Nat)
  rmod : BitVec 8
  cw : BitVec 16
  spc : BitVec 32
  rsc : BitVec 32
  umc : BitVec 32
  lrc : BitVec 32
  deriving DecidableEq, Repr

/-- Copy engine, Heron queries and range locks (R335, R346, R364). -/
structure EnginePart where
  copies : List CopyOp
  queries : List Query
  locks : Vector (Option Lock) 48
  deriving DecidableEq, Repr

/-- Counters (R400, R402, R434). -/
structure CountPart where
  ucnt : Word
  pcs : Vector (BitVec 48) 8
  sels : Vector (BitVec 16) 8
  ivt : BitVec 32
  dlb : BitVec 16384
  dcnt : BitVec 13
  deriving DecidableEq, Repr

/-- What the state block carries of a core (R135, R227, R242, R300, R353, R452). -/
structure Block where
  lr : LaunchRegs
  cx : Vector Ctx 8
  /-- the context that last held issue (R55, R76) -/
  hold : Nat
  /-- no context was ready when it passed issue on: the first to become ready takes it, in ring order after it (R58) -/
  free : Bool
  arr : ArrayPart
  sy : SyncPart
  ni : NiPart
  en : EnginePart
  ct : CountPart
  deriving DecidableEq, Repr

/-- A TLB (R361): entries by index, their order of use or insertion (oldest first), the insertion pointer of the
copy-engine kind, and the pins of the matrix-operand kind: entry, and the outstanding result of the PSCH that uses it. -/
structure Tlb where
  ents : Tbl (Word × Word)
  order : List Nat
  ptr : Nat
  pins : List (Nat × Nat)
  deriving DecidableEq, Repr

/-- A Wisp probe (R399): its issuer, the issuer's unit count at its PRB, the members still to visit, and what it carries. -/
structure Probe where
  tile : Nat
  ctx : Nat
  count : Word
  left : List Nat
  sum : BitVec 40
  black : Bool
  deriving DecidableEq, Repr

/-- Kinds of arrival-log records (R438). -/
inductive LogKind where
  | msg | wrt | atm | rsp | spr | cpd | tok | ack | rdv | bar | rsu | dvt | cut | dbg
  deriving DecidableEq, Repr

/-- An arrival-log record (R438): header fields, the payload, and the packet if the arrival came as one. -/
structure LogRec where
  ucnt : BitVec 40
  kind : LogKind
  rsm : Bool
  ctx : Nat
  cls : Nat
  seq : Nat
  src : Nat
  aux : Nat
  data : List Byte
  durable : Bool
  /-- the packet that the record keeps, if it came as one -/
  pkt : Option Pkt
  /-- the answer that its sender gets once the record is durable (R439) -/
  answer : Option Body
  /-- identity by which its class 7 packet names it -/
  rid : Nat := 0
  /-- a copy sends a line's request: the copy's index (entry 56) -/
  line : Option Nat := none
  /-- a debugger write (R451) -/
  dbg : Option DbgWrite := none
  /-- the probe whose result it brings (R409) -/
  probe : Option Probe := none
  deriving DecidableEq, Repr

/-- Phase of a checkpoint boundary (R435): none; triggered, while the array drains; staging, until the buddy has
acknowledged; committing; full, until a full boundary has committed (R437). -/
inductive BPhase where
  | none | triggered | staging | committing | full
  deriving DecidableEq, Repr

/-- What an NI spill ring holds, oldest first (R314). -/
inductive Spill where
  | notice (n : Notice)
  | msg (m : Msg)
  | pkt (p : Pkt)
  deriving DecidableEq, Repr

/-- An entry of the divert index (R313): context, slot and header of a message. -/
structure DivertEntry where
  ctx : Nat
  slot : Nat
  hdr : Word
  deriving DecidableEq, Repr

/-- What a core holds that no state block carries (R145 MAPG, R313, R314, R362, R369, R431, R447). -/
structure Volatile where
  mapg : BitVec 32
  tlbL : Tlb
  tlbC : Tlb
  /-- receive queues of classes 2 to 5, oldest first -/
  rq : List Msg
  taskQ : List Msg
  notices : List Notice
  /-- divert index (R313) -/
  dix : List DivertEntry
  /-- NI spill ring, and the spill buffer of the tile's router (R313) -/
  ring : List Spill
  rspill : List Pkt
  decayA : Tbl (BitVec 32)
  decayP : Tbl (BitVec 32)
  phase : BPhase
  /-- a boundary has been triggered while the last one still commits (R400, R435) -/
  owed : Bool
  /-- stopped by a detection event (R431), a debug halt (R450), or a gang switch (R76) -/
  failed : Bool
  /-- a read met a parity mismatch: the tile has stopped, and its Milliner has not been told (R229, R431) -/
  detected : Bool
  halted : Bool
  /-- the switch time that an announcement has brought (R76) -/
  switchAt : Option Word
  switched : Bool
  /-- all of the save area but VLD is written; VLD is (R447) -/
  written : Bool
  saved : Bool
  saveFault : Bool
  /-- the NI's round (R306): place in the order 6, 1, 2, 3, 4, 5, and messages started there -/
  turn : Nat
  spent : Nat
  /-- while the tile replays: the log records still to be applied (R440) -/
  replay : Option (List LogRec)
  /-- heartbeat seen since the watchdog last looked (R430) -/
  beat : Bool
  deriving DecidableEq, Repr

/-- A core: a tile, a TSC or a rim optimiser core. -/
structure Tile where
  pool : Mem
  /-- the pool's 64-bit words whose stored parity bit disagrees with their data (R229) -/
  par : List Nat
  blk : Block
  vol : Volatile
  deriving DecidableEq, Repr

/-! ### The fen store (R244, R435, R438) -/

/-- The fen store of a protected tile: images, staging and log. -/
structure Fen where
  image : Mem
  block : Block
  stagedLines : List (Nat × List Byte)
  stagedBlock : Block
  /-- log of the old interval until the commit, then of the new -/
  oldLog : List LogRec
  log : List LogRec
  commitFlag : Bool
  /-- no fen store protects the tile (R436, R442) -/
  unprotected : Bool
  deriving DecidableEq, Repr

/-! ### Clusters -/

/-- A request in the TSC request queue (R313, R375). -/
structure TscReq where
  slot : Nat
  addr : Word
  acc : Nat
  kind : Nat
  pos : Nat
  ctx : Nat
  asid : BitVec 12
  gen : BitVec 4
  tag : BitVec 16
  res : Nat
  taken : Bool
  deriving DecidableEq, Repr

/-- A cluster unit (R205, R208, R221, R354, R361, R363, R367). -/
structure Cluster where
  holder : Option Nat
  started : Nat
  /-- schedules that differ from the identity: entry (n, p, f) at 256n + 16p + f is 16q + g -/
  sched : Tbl Nat
  running : Option (Nat × List (Nat × Nat × Nat))
  /-- the boundaries before an exchange have been started, and the ones after it have not all committed (R227, R443) -/
  pre : Bool
  post : Bool
  mtlb : Tlb
  gent : Tbl (BitVec 4)
  /-- position map entries that differ from the identity: router and site -/
  posmap : Tbl (Nat × Nat)
  reqs : List TscReq
  /-- HBC written since the TSC watchdog last looked (R430) -/
  tscBeat : Bool
  deriving DecidableEq, Repr

/-! ### The rim -/

/-- A gradient queue (R315, R341). -/
structure GradQ where
  typ : Nat
  depth : Nat
  window : Nat
  pushers : List Nat
  prt : Nat
  /-- device address of the ring, and the number of the next record in it (R313) -/
  base : Nat
  tail : Nat
  /-- records that stand in the ring, oldest first: pusher, context, TSN, rank, and the record's number -/
  recs : List (Nat × Nat × BitVec 16 × Nat × Nat)
  /-- the popped record not yet complete, by popping core: pusher tile, context, TSN -/
  popped : List (Nat × Nat × Nat × BitVec 16)
  deriving DecidableEq, Repr

/-- A deduplication entry (R371, R372): one above the highest completed number, and the last eight results of the operations that
count towards the limit of 8; beside them the last lines that the copy engine read, one for each place of its queue (entry 56). -/
structure Dedup where
  done : Nat
  held : List (Nat × Reply)
  lines : List (Nat × Reply) := []
  deriving DecidableEq, Repr

/-- A reduction held in a combining buffer (R254, R294). -/
structure Comb where
  src : Nat
  op : RedOp
  w32 : Bool
  addr : Nat
  x : Word
  deriving DecidableEq, Repr

/-- The running triple of a scan (R347): maximum, sum and accumulators, as f32. -/
structure Triple where
  m : Nat
  l : Nat
  acc : List Nat
  deriving DecidableEq, Repr

/-- An entry of a Heron bank queue (R313, R351): a scan with the row scans done and what they came to; an append; an ordinary
access. `ahead` counts the row scans that have gone ahead of it. -/
inductive HeronEntry where
  | scan (r : Req) (query page k unit rows : Nat) (t : Triple)
  | append (r : Req) (pos base : Nat) (rows : List (Nat × List Byte)) (ahead : Nat)
  | access (r : Req) (ahead : Nat)
  deriving DecidableEq, Repr

/-- One direction of a UCIe module (R457, R458, R482). -/
structure LinkDir where
  seq : BitVec 8
  /-- flits formed and not acknowledged: number and packets -/
  buf : List (BitVec 8 × List Nat)
  /-- how many of them, the youngest, have never been sent (R482) -/
  unsent : Nat
  /-- flits on the wire -/
  wire : List (BitVec 8 × List Nat)
  expect : BitVec 8
  nak : Option (BitVec 8)
  /-- places, in flits received, of recent CRC failures -/
  fails : List Nat
  received : Nat
  deriving DecidableEq, Repr

/-- A UCIe module (R458, R484, R486). -/
structure Uci where
  lanes : Nat
  half : Nat
  rpl : BitVec 24
  crc : BitVec 24
  failed : List Nat
  retraining : Bool
  toRim : LinkDir
  toWafer : LinkDir
  deriving DecidableEq, Repr

/-- A Belvis port (R459). -/
structure Belvis where
  tx : BitVec 32
  una : BitVec 32
  rx : BitVec 32
  resends : Nat
  /-- frames sent and not acknowledged: number, module, address, line (none in one that asks for a line), and the copy as tile and index -/
  out : List (BitVec 32 × Nat × Nat × List Byte × Nat × Nat)
  /-- reads of lines through a window, taken and not answered, oldest first (entry 56) -/
  asks : List Req
  deriving DecidableEq, Repr

/-- Home slices, CXL ports, gradient endpoints, Heron units and links. -/
structure Rim where
  /-- combining buffers, by slice -/
  comb : Tbl (List Comb)
  /-- deduplication, by owner number times 2^16 plus source -/
  dedup : Tbl Dedup
  /-- decay copies by slice and partition (16 times slice plus partition): entry 32c + k; active and pending -/
  decayA : Tbl (Tbl (BitVec 32))
  decayP : Tbl (Tbl (BitVec 32))
  /-- sweep registers, by slice and partition, 16 of each: base, size, step of the last pass -/
  sweep : Tbl (List (Nat × Nat × Nat))
  grad : Tbl GradQ
  bank : Tbl (List HeronEntry)
  uci : Tbl Uci
  belvis : Tbl Belvis
  /-- the module's own Belvis number -/
  moduleNo : BitVec 16
  failedCores : List Nat
  deriving DecidableEq, Repr

/-! ### Launches and the command processor -/

/-- A launch record (R463). -/
structure LRec where
  ord : Bool
  lsen : Bool
  drn0 : Bool
  dvm : Bool
  fxo : Bool
  pres : BitVec 8
  bw : BitVec 8
  bh : BitVec 8
  gw : Nat
  gh : Nat
  gxo : Nat
  gyo : Nat
  ctxl : BitVec 8
  dvs : Nat
  rmod : BitVec 8
  aest : Nat
  cw : BitVec 16
  part : Word
  img : Word
  isz : Nat
  xb : Nat
  tent : Nat
  bent : Nat
  uent : Nat
  oent : Nat
  d : Word
  w : Word
  ivl : Nat
  asid : BitVec 12
  pasid : BitVec 20
  gst0 : Word
  ls0 : Int
  lsmin : Int
  lsmax : Int
  ncln : Nat
  stbl : Word
  stbn : Nat
  bmt : Word
  rtab : Word
  dtab : Word
  savb : Word
  crec : Word
  csig : Word
  cval : Word
  ltag : Word
  deriving DecidableEq, Repr

/-- How far a launch is. -/
inductive GangState where
  | placed | running | switching | switchedOut | saveIncomplete
  deriving DecidableEq, Repr

/-- A domain's completion at the tree (R396, R398): tiles that have yet to take it, the tiles whose next arrival counts with EPO 1 (R440),
the last sample per tile, and the last wave. -/
structure Domain where
  left : List Nat
  odd : List Nat
  sample : Tbl (BitVec 40)
  /-- the previous wave's sum was zero -/
  zero : Bool
  /-- this wave meets the drained condition -/
  clear : Bool
  deriving DecidableEq, Repr

/-- A launch in the launch table and in the step unit (R393, R394, R460). -/
structure Gang where
  lrec : LRec
  queue : Nat
  state : GangState
  d : Word
  b : Word
  gst : Word
  srq : Bool
  /-- the last completion of domain 0 advanced the step (R395) -/
  stepped : Bool
  ls : Int
  cln : Nat
  doms : Tbl Domain
  probes : Tbl (List Probe)
  /-- released into wrap-up (R66) -/
  wrap : Bool
  fatals : Nat
  firstFatal : Option (Word × Word)
  sweepLate : Bool
  /-- double fault: ends with status failed (R445) -/
  failed : Bool
  /-- agreed switch time (R76), and the map generation at it (R242) -/
  switchAt : Option Word
  mgAt : BitVec 32
  /-- route tables of classes in table mode: key 2048 * (class - 2) + cluster (R356) -/
  routes : Tbl Nat
  /-- its images, registers and masks are on their way to the tiles, and its release is not yet (R47) -/
  loaded : Bool := false
  /-- the stable list: virtual address and size of each range (R107, R239) -/
  stable : List (Nat × Nat) := []
  /-- the counter of free values when it was dispatched: pages written since have changed during the launch (R239) -/
  began : Nat := 0
  deriving DecidableEq, Repr

/-- The translations that an address of the command processor goes through (R462): an ASID for space 10, a PASID for space 11. -/
structure CpSpace where
  asid : BitVec 12
  pasid : BitVec 20
  deriving DecidableEq, Repr

/-- A range of addresses that the host has mapped for an ASID, or with `sys` for a PASID (R232): virtual and physical address, and size. -/
structure CpMap where
  sys : Bool
  id : Nat
  va : Nat
  pa : Nat
  size : Nat
  deriving DecidableEq, Repr

/-- A completion posted to the event ring (R470): the record, and where it and the signal go. -/
structure Posted where
  bytes : List Byte
  space : CpSpace
  crec : Word
  csig : Word
  cval : Word
  deriving DecidableEq, Repr

/-- What a host queue waits for (R462). -/
inductive QWait where
  | signal (addr value : Word) (code : Nat)
  | time (t : Word)
  | fence
  deriving DecidableEq, Repr

/-- A host queue (R317, R466). -/
structure HostQ where
  ring : Word
  tkt : BitVec 16
  lsz : BitVec 4
  prt : BitVec 4
  pasid : BitVec 20
  state : Nat
  err : Nat
  head : BitVec 32
  tail : BitVec 32
  pass : Nat
  joined : Bool
  /-- open loops: index of the packet after LOOP, passes left -/
  loops : List (Nat × Nat)
  wait : Option QWait
  /-- CMD 3 was taken while the command processor hung: the brims are still to be forced (R35, R468) -/
  brim : Bool
  deriving DecidableEq, Repr

/-- A partition descriptor (R498). -/
structure Partition where
  en : Bool
  pcnt : Nat
  pbas : Nat
  acnt : Nat
  abas : Nat
  clm : BitVec 1920
  deriving DecidableEq, Repr

/-- A page request to the host (R376). -/
structure PageReq where
  tag : BitVec 16
  pasid : BitVec 20
  addr : Word
  acc : Nat
  cluster : Nat
  kind : Nat
  pos : Nat
  ctx : Nat
  asid : BitVec 12
  gen : BitVec 4
  deriving DecidableEq, Repr

/-- The command processor complex (R317 to R322, R460, R470). -/
structure Cp where
  queues : Tbl HostQ
  parts : Tbl Partition
  gangs : Tbl Gang
  nextGang : Nat
  /-- the queue whose turn runs -/
  turn : Option Nat
  /-- queues whose head launch could not be placed in this pass (R320) -/
  blocked : List Nat
  lastPass : Nat
  /-- reserved clusters, by queue -/
  reserved : Tbl (List Nat)
  /-- fatal reports received and not yet taken: gang, report words -/
  reports : List (Nat × Word × Word)
  /-- page requests to the host, oldest first -/
  pages : List PageReq
  afh : Word
  afd : Tbl (BitVec 8)
  hung : Bool
  beat : Bool
  /-- saved state blocks, by launch times 2^16 plus rank (R242) -/
  saves : Tbl Block
  /-- saved spill rings, by the same number (R242, R314) -/
  rings : Tbl (List Spill)
  /-- what the host has mapped, newest first (entry 12) -/
  maps : List CpMap
  deriving DecidableEq, Repr

/-- A Causeway update that waits for its flip (R358, R441): the shadow copies of the bindings, position maps, OVR fields and
route tables (by launch), the physical clusters whose routers have not acknowledged them, and the tiles whose replay it
starts. -/
structure Shadow where
  pcn : Tbl Nat
  pos : Tbl (Tbl (Nat × Nat))
  ovr : Tbl Nat
  routes : Tbl (Tbl Nat)
  left : List Nat
  cores : List Nat
  /-- tiles whose buddy position has a new carrier -/
  full : List Nat
  deriving DecidableEq, Repr

/-- The Crown, the Causeway, readiness, mailbox and telemetry (R36 to R40, R354, R358, R456, R471, R475). -/
structure Mgmt where
  rdyfa : Word
  rdyfb : Word
  rdym : Word
  rdyc : Word
  slkt : Word
  domainNumber : Word
  mailCmd : Word
  mailOps : Tbl Word
  window : Mem
  /-- the mailbox's event ring, oldest first (R470) -/
  events : List Posted
  /-- MSI-X vectors raised, newest first -/
  msix : List Nat
  /-- Causeway: entries that differ from the identity, (VLD, PCN) by logical cluster -/
  cause : Tbl (Bool × Nat)
  /-- OVR by router and logical cluster: key 2048 * router + cluster (R354) -/
  ovr : Tbl Nat
  /-- the update under way -/
  shadow : Option Shadow
  mgen : BitVec 32
  /-- the bindings and OVR fields from which the latency rows were last written (R359) -/
  rowCause : Tbl (Bool × Nat)
  rowOvr : Tbl Nat
  /-- spare clusters in use, by PCN -/
  spareUsed : List Nat
  /-- sites out of service, by physical cluster; 17 stands for its cluster unit and routers (R19) -/
  badSites : Tbl (List Nat)
  /-- sites that carry no position and have sent no heartbeat since their watchdogs last looked: 32 times physical cluster plus site (R25,
  R430) -/
  silent : List Nat
  /-- repairs in progress: tiles restored whose replay has not ended -/
  repairs : List Nat
  /-- the fields in which their sites failed, by tile (R446) -/
  repairField : Tbl Nat
  budget : Nat
  /-- last measured currents, by domain -/
  currents : Tbl Nat
  grants : Tbl Nat
  duties : Tbl Nat
  hot : List Nat
  /-- last measured junction temperatures, by domain, and coolant flow and temperatures (R475) -/
  junction : Tbl Nat
  coolant : List Nat
  domainsOff : List Nat
  /-- the forecast that the Crown has taken: its SEQ, its AT and its table (R321) -/
  afSeen : BitVec 16
  afAt : Nat
  afTaken : Tbl (BitVec 8)
  softErrors : Nat
  repaired : Nat
  sweepLates : List Nat
  /-- refused firmware images, with their causes, and the verified ones (R472) -/
  fwRefused : List (Firmware × Nat)
  fwLoaded : List FwImage
  /-- fuses: the digest of the Tolholt key, the rollback counters by kind of image (R472); and the number of the identity key pair (R473) -/
  keyDigest : BitVec 512
  rollback : Tbl Nat
  identityKey : Nat
  /-- failed self-tests, with their causes (R39) -/
  testFailed : List (Fn × Nat)
  /-- launches of which no switch could be announced, as reported to the host (R243) -/
  switchErrors : List Nat
  /-- launches whose save is incomplete, as reported to the host (R449) -/
  saveErrors : List Nat
  /-- functions lost since module reset (R40) -/
  lost : List Fn
  attestKey : Nat
  retests : List (Nat × Nat × Bool)
  /-- partitions under a debug halt; 16 stands for the whole wafer (R450) -/
  halts : List Nat
  /-- tiles that carry a twin, by twinned tile -/
  twins : Tbl Nat
  alarm : Bool
  deriving DecidableEq, Repr

/-- The device clock (R389, R390): 64 bits of ns and 32 of fraction as one number of 2^-32 ns. -/
structure Clock where
  now : Nat
  /-- correction in parts per million, within 100 -/
  slew : Int
  /-- DOFS, and whether a first lock has recorded it -/
  dofs : Word
  dofsSet : Bool
  /-- data sets announced at the Belvis ports, as numbers of which the least is the best (R390) -/
  announce : Tbl Nat
  deriving DecidableEq, Repr

/-- What the environment makes happen next. -/
inductive Choice where
  /-- the core issues its next unit -/
  | issue (core : Nat)
  /-- an event, with its operands -/
  | event (i : Instr) (a : EvArg)
  deriving DecidableEq, Repr

/-- The module. -/
structure State where
  /-- cores: tile (x, y) at 192y + x, TSC of cluster c at 30,720 + c, rim core k of chiplet ch at 32,768 + 16ch + k -/
  tiles : Tbl Tile
  /-- the core whose unit comes next when nothing is chosen -/
  cur : Nat
  fens : Tbl Fen
  clusters : Tbl Cluster
  dev : Mem
  host : Mem
  net : List Pkt
  rim : Rim
  cp : Cp
  mg : Mgmt
  clk : Clock
  /-- the environment's choices, next first -/
  sched : List Choice
  /-- operands of the event in hand -/
  arg : EvArg
  /-- counter of free values (entry 3) -/
  fresh : Nat
  /-- identities of requests and packets (entry 4) -/
  nextId : Nat
  /-- when each 64 KiB page of device memory last changed, by the counter of free values: decides what of a stable page is unspecified
  (R239, entry 67) -/
  devAt : Tbl Nat := []
  deriving DecidableEq, Repr

/-! ### Reset -/

/-- A context after module reset: idle, every register 0 but p0 (all ones) and TTH (R139, R145). -/
def Ctx.reset (supervisor : Bool) : Ctx where
  pc := 0
  g := Vector.replicate 64 0
  p := (Vector.replicate 8 0).set 0 0xFFFFFFFF
  s := Vector.replicate 8 0
  run := .idle
  diverted := false
  outs := []
  relNext := none
  tth := 0x3F000000
  ups := 0
  trc := 0
  tra := 0
  epc := 0
  supervisor := supervisor
  sst := 0
  sepc := 0
  sec := 0
  svec := 0
  asn := 0
  psd := 0
  hbc := 0
  mln := 0
  marm := false
  mchg := false
  tsn := 0
  apnd := []
  ocnt := 0
  upGone := false

def LaunchRegs.reset : LaunchRegs where
  tid := 0
  xb := 0
  rank := 0
  gxo := 0
  gyo := 0
  gw := 0
  gh := 0
  pres := 0xE3
  bw := 0
  bh := 0
  part := 0
  ord := false
  dln := 0
  brt := 0
  vwd := 0
  steps := 0
  lscl := 0
  upv := 0
  trv := 0
  jix := 0
  tent := 0
  bent := 0
  ctxl := 0
  asid := 0
  pasid := 0
  prt := 0
  dvs := 0
  ivl := 0
  gang := none
  started := false
  brimFired := false
  dlnFired := false

def ArrayPart.reset : ArrayPart where
  accs := Vector.replicate 8 { vld := false, drt := false, ifl := false, own := 0 }
  af := false
  wf := 0
  afNext := false
  wfNext := 0
  slots := Vector.replicate 2 { st := 0, fmt := 0, off := 0, img := [] }
  sqa := 0
  sqd := 0
  req := false
  queue := []
  mx := none
  mxBy := (0, 0)
  rows := []

def SyncPart.reset : SyncPart where
  mem := 0
  drn := 0
  memP := 0
  drnP := 0
  arr := 0
  arvs := []
  epo := 0
  pbc := Vector.replicate 16 0
  pch := 0
  wcol := 0xFFFF
  stq := false
  ovt := false
  stqC := false
  ovtC := false
  xph := false
  nxs := 0
  xtb := 0
  xcnt := 0

def NiPart.reset : NiPart where
  journal := []
  reqs := []
  rtx := []
  results := []
  send := []
  recv := []
  seq6 := 0
  anum := 0
  dov := false
  win := Vector.replicate 8 (0, 0)
  swrote := []
  rmod := 0
  cw := 0
  spc := 0
  rsc := 0
  umc := 0
  lrc := 0

def Tlb.empty : Tlb where
  ents := []
  order := []
  ptr := 0
  pins := []

def Block.reset (supervisor : Bool) : Block where
  lr := .reset
  cx := Vector.replicate 8 (Ctx.reset supervisor)
  hold := 0
  free := false
  arr := .reset
  sy := .reset
  ni := .reset
  en := { copies := [], queries := [], locks := Vector.replicate 48 none }
  ct := { ucnt := 0, pcs := Vector.replicate 8 0, sels := Vector.replicate 8 0, ivt := 0, dlb := 0, dcnt := 0 }

def Volatile.reset : Volatile where
  mapg := 0
  tlbL := .empty
  tlbC := .empty
  rq := []
  taskQ := []
  notices := []
  dix := []
  ring := []
  rspill := []
  decayA := []
  decayP := []
  phase := .none
  owed := false
  failed := false
  detected := false
  halted := false
  switchAt := none
  switched := false
  written := false
  saved := false
  saveFault := false
  turn := 0
  spent := 0
  replay := none
  beat := true

/-- Coordinates of a tile (R17), and TID (R147). -/
def tileX (t : Nat) : Nat := t % 192
def tileY (t : Nat) : Nat := t / 192
def tidOf (t : Nat) : BitVec 16 := BitVec.ofNat 16 (tileX t * 256 + tileY t)

/-- The first core number of the TSCs, and of the rim cores. -/
def tscBase : Nat := 30720
def rimBase : Nat := 32768

/-- A core after module reset; TSC and rim cores run in supervisor mode (R25, R425). TID of a tile is its coordinates (R147). -/
def Tile.reset (core : Nat) : Tile where
  pool := []
  par := []
  blk :=
    let b := Block.reset (tscBase ≤ core)
    { b with lr := { b.lr with tid := if core < tscBase then tidOf core else 0 } }
  vol := .reset

/-- A state block of zeros, as a fen store holds it after reset (R245). -/
def Block.zero : Block :=
  let b := Block.reset false
  { b with
    lr := { b.lr with pres := 0 }, sy := { b.sy with wcol := 0 }
    cx := Vector.replicate 8 { Ctx.reset false with tth := 0, p := Vector.replicate 8 0 } }

def Fen.reset : Fen where
  image := []
  block := .zero
  stagedLines := []
  stagedBlock := .zero
  oldLog := []
  log := []
  commitFlag := false
  unprotected := false

def Cluster.reset : Cluster where
  holder := none
  started := 0
  sched := []
  running := none
  pre := false
  post := false
  mtlb := .empty
  gent := []
  posmap := []
  reqs := []
  tscBeat := true

def LinkDir.reset : LinkDir where
  seq := 0
  buf := []
  unsent := 0
  wire := []
  expect := 0
  nak := none
  fails := []
  received := 0

def Uci.reset : Uci where
  lanes := 64
  half := 0
  rpl := 0
  crc := 0
  failed := []
  retraining := false
  toRim := .reset
  toWafer := .reset

def HostQ.reset : HostQ where
  ring := 0
  tkt := 0
  lsz := 0
  prt := 0
  pasid := 0
  state := 0
  err := 0
  head := 0
  tail := 0
  pass := 0
  joined := false
  loops := []
  wait := none
  brim := false

/-- Partition 0 holds every PASID, every ASID and every cluster; the others are disabled (R498). -/
def Partition.reset (n : Nat) : Partition where
  en := n == 0
  pcnt := if n = 0 then 2 ^ 20 else 0
  pbas := 0
  acnt := if n = 0 then 4096 else 0
  abas := 0
  clm := if n = 0 then BitVec.allOnes 1920 else 0

def Rim.reset : Rim where
  comb := []
  dedup := []
  decayA := []
  decayP := []
  sweep := []
  grad := []
  bank := []
  uci := []
  belvis := []
  moduleNo := 0
  failedCores := []

def Cp.reset : Cp where
  queues := []
  parts := []
  gangs := []
  nextGang := 0
  turn := none
  blocked := []
  lastPass := 0
  reserved := []
  reports := []
  pages := []
  afh := 0
  afd := []
  hung := false
  beat := true
  saves := []
  rings := []
  maps := []

/-- The wafer's budget is 27.0 kW (R36); SLKT 1,000,000 (R456). -/
def Mgmt.reset : Mgmt where
  rdyfa := 0
  rdyfb := 0
  rdym := 0
  rdyc := 0
  slkt := 1000000
  domainNumber := 0
  mailCmd := 0
  mailOps := []
  window := []
  events := []
  msix := []
  cause := []
  ovr := []
  shadow := none
  mgen := 0
  rowCause := []
  rowOvr := []
  spareUsed := []
  badSites := []
  silent := []
  repairs := []
  repairField := []
  budget := 27000
  currents := []
  grants := []
  duties := []
  hot := []
  junction := []
  coolant := []
  domainsOff := []
  afSeen := 0
  afAt := 0
  afTaken := []
  softErrors := 0
  repaired := 0
  sweepLates := []
  fwRefused := []
  fwLoaded := []
  keyDigest := 0
  rollback := []
  identityKey := 0
  testFailed := []
  switchErrors := []
  saveErrors := []
  lost := []
  attestKey := 0
  retests := []
  halts := []
  twins := []
  alarm := false

/-- The module right after reset: no core listed, so that every core is `Tile.reset`; memories empty; nothing
chosen. -/
def State.reset : State where
  tiles := []
  cur := 0
  fens := []
  clusters := []
  dev := []
  host := []
  net := []
  rim := .reset
  cp := .reset
  mg := .reset
  clk := { now := 0, slew := 0, dofs := 0, dofsSet := false, announce := [] }
  sched := []
  arg := {}
  fresh := 0
  nextId := 0

/-! ### Ways a step can stop -/

/-- Why the machine stops with a fault. -/
inductive Fault where
  /-- Raised by every access whose translation names a device physical address at or above 1,152 GiB, which R237
  says does not exist. Safe: the model stops where the manual gives no memory. -/
  | noDeviceAddress
  deriving DecidableEq, Repr

/-- Why a step has no meaning. -/
inductive Refusal where
  /-- Raised by the dispatch for an instruction without a meaning. Safe: nothing follows from it. -/
  | notModelled (mnemonic : String)
  deriving DecidableEq, Repr

end Sys2Proof.Machine
end

