-- ==== Sys2Proof/Machine/Ops.lean ====
section
/-! DEFINITION. The named operations that the meanings are written over: tables, memories, registers, pool writes,
waits and the passing of issue, trap entry and the issue of one unit. -/

namespace Sys2Proof.Machine

/-! ### Tables -/

/-- The entry of a table at a number, if it is listed. -/
def Tbl.look {α : Type} (t : Tbl α) (k : Nat) : Option α :=
  match t with
  | [] => none
  | (i, a) :: r => if i = k then some a else Tbl.look r k

/-- The entry at a number, `d` where it is not listed. -/
def Tbl.get {α : Type} (t : Tbl α) (k : Nat) (d : α) : α := (Tbl.look t k).getD d

/-- Set the entry at a number. -/
def Tbl.put {α : Type} (t : Tbl α) (k : Nat) (a : α) : Tbl α :=
  match t with
  | [] => [(k, a)]
  | (i, b) :: r => if i = k then (k, a) :: r else (i, b) :: Tbl.put r k a

/-- Remove the entry at a number. -/
def Tbl.drop {α : Type} (t : Tbl α) (k : Nat) : Tbl α := t.filter (fun e => e.1 != k)

/-! ### Memories -/

/-- The byte at an address; an unlisted address reads zero. -/
def Mem.read (m : Mem) (a : Nat) : Byte :=
  match m with
  | [] => 0
  | (k, b) :: r => if k = a then b else Mem.read r a

/-- `n` bytes from an address upward. -/
def Mem.bytes (m : Mem) (a n : Nat) : List Byte := (List.range n).map (fun i => Mem.read m (a + i))

/-- The cells that bytes from an address upward take: none for a zero byte. -/
def Mem.cells (a : Nat) : List Byte → Mem
  | [] => []
  | b :: bs => if b = 0 then Mem.cells (a + 1) bs else (a, b) :: Mem.cells (a + 1) bs

/-- Write bytes from an address upward; the canonical form is kept. -/
def Mem.write (m : Mem) (a : Nat) (bs : List Byte) : Mem :=
  m.filter (fun e => e.1 < a) ++ Mem.cells a bs ++ m.filter (fun e => a + bs.length ≤ e.1)

/-- The 64 KiB pages of the bytes in which two memories differ. -/
def Mem.changed (m n : Mem) : List Nat :=
  (m.filter (fun e => !n.contains e) ++ n.filter (fun e => !m.contains e)).map (fun e => e.1 / 0x10000)

/-- The canonical form: addresses strictly rising, no zero byte listed. -/
def Mem.wf (m : Mem) : Bool :=
  match m with
  | [] => true
  | (a, b) :: r => b != 0 && (match r with | [] => true | (k, _) :: _ => a < k) && Mem.wf r

/-- Bytes, least significant first, as a number (R4). -/
def leNat : List Byte → Nat
  | [] => 0
  | b :: bs => b.toNat + 256 * leNat bs

/-- The `n` low bytes of a number, least significant first (R4). -/
def leBytes : Nat → Nat → List Byte
  | 0, _ => []
  | n + 1, w => BitVec.ofNat 8 w :: leBytes n (w / 256)

/-- A number of `n` bytes at an address. -/
def Mem.nat (m : Mem) (a n : Nat) : Nat := leNat (Mem.bytes m a n)

/-- The memory image of a vector register (R4). -/
def vecBytes (v : Vec) : List Byte := leBytes 128 v.toNat
/-- The vector register whose memory image begins with these bytes. -/
def vecOfBytes (bs : List Byte) : Vec := BitVec.ofNat 1024 (leNat bs)

/-- Bits [hi:lo] of a word, as a number. -/
def fld {w : Nat} (x : BitVec w) (hi lo : Nat) : Nat := x.toNat / 2 ^ lo % 2 ^ (hi + 1 - lo)

/-- Replace bits [hi:lo] of a word. -/
def setFld {w : Nat} (x : BitVec w) (hi lo v : Nat) : BitVec w :=
  BitVec.ofNat w (x.toNat - fld x hi lo * 2 ^ lo + v % 2 ^ (hi + 1 - lo) * 2 ^ lo)

/-! ### Registers of a context (R139) -/

/-- Read a general register; g0 reads zero. -/
def Ctx.rg (c : Ctx) (r : RegNo) : Word := if r = 0 then 0 else c.g.get r.toFin

/-- Write a general register; a write to g0 is discarded. -/
def Ctx.wg (c : Ctx) (r : RegNo) (v : Word) : Ctx :=
  if r = 0 then c else { c with g := c.g.set r.toNat v r.isLt }

/-- Read a predicate register; p0 reads all ones. -/
def Ctx.rp (c : Ctx) (r : BitVec 3) : BitVec 32 := if r = 0 then 0xFFFFFFFF else c.p.get r.toFin

/-- Write a predicate register; a write to p0 is discarded. -/
def Ctx.wp (c : Ctx) (r : BitVec 3) (v : BitVec 32) : Ctx :=
  if r = 0 then c else { c with p := c.p.set r.toNat v r.isLt }

/-- A stream register. -/
def Ctx.rs (c : Ctx) (r : BitVec 3) : BitVec 128 := c.s.get r.toFin
def Ctx.ws (c : Ctx) (r : BitVec 3) (v : BitVec 128) : Ctx := { c with s := c.s.set r.toNat v r.isLt }

/-- TRC.NEST (R147). -/
def Ctx.nest (c : Ctx) : Bool := c.trc.getLsbD 9
/-- UPS.ANS, UPS.CAU and UPS.TAG (R147). -/
def Ctx.ans (c : Ctx) : Nat := fld c.ups 15 8
def Ctx.upCause (c : Ctx) : Nat := fld c.ups 7 0

/-! ### Contexts of a core -/

def ctxIx (c : Nat) : Fin 8 := ⟨c % 8, Nat.mod_lt c (by decide)⟩

def Block.ctx (b : Block) (c : Nat) : Ctx := b.cx.get (ctxIx c)
def Block.setCtx (b : Block) (c : Nat) (x : Ctx) : Block :=
  { b with cx := b.cx.set (c % 8) x (Nat.mod_lt c (by decide)) }

def Tile.ctx (t : Tile) (c : Nat) : Ctx := t.blk.ctx c
def Tile.setCtx (t : Tile) (c : Nat) (x : Ctx) : Tile := { t with blk := t.blk.setCtx c x }
def Tile.modCtx (t : Tile) (c : Nat) (f : Ctx → Ctx) : Tile := t.setCtx c (f (t.ctx c))

def Tile.modVol (t : Tile) (f : Volatile → Volatile) : Tile := { t with vol := f t.vol }
def Tile.modLr (t : Tile) (f : LaunchRegs → LaunchRegs) : Tile := { t with blk := { t.blk with lr := f t.blk.lr } }
def Tile.modArr (t : Tile) (f : ArrayPart → ArrayPart) : Tile := { t with blk := { t.blk with arr := f t.blk.arr } }
def Tile.modSy (t : Tile) (f : SyncPart → SyncPart) : Tile := { t with blk := { t.blk with sy := f t.blk.sy } }
def Tile.modNi (t : Tile) (f : NiPart → NiPart) : Tile := { t with blk := { t.blk with ni := f t.blk.ni } }
def Tile.modEn (t : Tile) (f : EnginePart → EnginePart) : Tile := { t with blk := { t.blk with en := f t.blk.en } }
def Tile.modCt (t : Tile) (f : CountPart → CountPart) : Tile := { t with blk := { t.blk with ct := f t.blk.ct } }

/-- NCTX, NACC and STK of the partition word (R136). -/
def Tile.nctx (t : Tile) : Nat := fld t.blk.lr.part 3 0
def Tile.nacc (t : Tile) : Nat := fld t.blk.lr.part 7 4
def Tile.stk (t : Tile) : Nat := fld t.blk.lr.part 23 16

/-- CA(c), ABASE, the top of a stack and LIM (R137). -/
def ctxArea (c : Nat) : Nat := 0x200000 - 4096 * (c + 1)
def Tile.abase (t : Tile) : Nat := 0x200000 - 4096 * t.nctx - 65536 * t.nacc
def Tile.stackTop (t : Tile) (c : Nat) : Nat := t.abase - 1024 * t.stk * c
def Tile.lim (t : Tile) : Nat := t.abase - 1024 * t.stk * t.nctx
/-- Pool offset of a divert slot (R309). -/
def Tile.slotAddr (t : Tile) (c k : Nat) : Nat := t.stackTop c - 1024 * t.stk + 160 * k

/-! ### Cores of the module -/

def State.tile (s : State) (k : Nat) : Tile := Tbl.get s.tiles k (Tile.reset k)
def State.setTile (s : State) (k : Nat) (t : Tile) : State := { s with tiles := Tbl.put s.tiles k t }
def State.modTile (s : State) (k : Nat) (f : Tile → Tile) : State := s.setTile k (f (s.tile k))

/-- Device memory changes. -/
def State.putDev (s : State) (m : Mem) : State :=
  { s with dev := m, devAt := (s.dev.changed m).foldl (fun t p => Tbl.put t p s.fresh) s.devAt }

/-- The core whose unit is in hand, its context that holds issue. -/
def State.me (s : State) : Tile := s.tile s.cur
def State.modMe (s : State) (f : Tile → Tile) : State := s.modTile s.cur f
def State.cx (s : State) : Ctx := s.me.ctx s.me.blk.hold
def State.modCx (s : State) (f : Ctx → Ctx) : State := s.modMe (fun t => t.modCtx t.blk.hold f)

/-- Registers of the context in hand. -/
def State.g (s : State) (r : RegNo) : Word := s.cx.rg r
def State.setG (s : State) (r : RegNo) (v : Word) : State := s.modCx (fun c => c.wg r v)
def State.p (s : State) (r : RegNo) : BitVec 32 := s.cx.rp (r.setWidth 3)
def State.setP (s : State) (r : RegNo) (v : BitVec 32) : State := s.modCx (fun c => c.wp (r.setWidth 3) v)

def State.cluster (s : State) (k : Nat) : Cluster := Tbl.get s.clusters k .reset
def State.modCluster (s : State) (k : Nat) (f : Cluster → Cluster) : State :=
  { s with clusters := Tbl.put s.clusters k (f (s.cluster k)) }
def State.fen (s : State) (k : Nat) : Fen := Tbl.get s.fens k .reset
def State.modFen (s : State) (k : Nat) (f : Fen → Fen) : State := { s with fens := Tbl.put s.fens k (f (s.fen k)) }

/-- A tile's number, its cluster and its position there (R17). -/
def tileNo (x y : Nat) : Nat := 192 * y + x
def clusterOf (t : Nat) : Nat := tileY t / 4 * 48 + tileX t / 4
def posOf (t : Nat) : Nat := 4 * (tileY t % 4) + tileX t % 4
/-- The tile at a position of a cluster. -/
def tileAt (cluster pos : Nat) : Nat := tileNo (cluster % 48 * 4 + pos % 4) (cluster / 48 * 4 + pos / 4)
/-- The buddy of a logical tile (R22). -/
def buddyOf (t : Nat) : Nat := tileNo ((tileX t + 24) % 192) (tileY t)
/-- A core is a tile, a TSC or a rim core. -/
def isTile (core : Nat) : Bool := core < tscBase
def isTsc (core : Nat) : Bool := tscBase ≤ core && core < rimBase
/-- The cluster whose unit serves a core. -/
def homeCluster (core : Nat) : Nat := if isTile core then clusterOf core else core - tscBase
/-- A fresh identity (entry 4). -/
def State.newId (s : State) : Nat × State := (s.nextId, { s with nextId := s.nextId + 1 })

/-- Device time in ns (R389). -/
def State.time (s : State) : Word := BitVec.ofNat 64 (s.clk.now / 2 ^ 32)

/-- Field of a physical cluster (R16). -/
def fieldOf (pcn : Nat) : Nat := if pcn < 1920 then pcn / 48 / 4 * 8 + pcn % 48 / 6 else 80 + (pcn - 1920) / 24
/-- Device time as a core reads it: its field's copy (R389), which lags the time base by up to 4 ns; a core keeps the copy of its
logical cluster's field. -/
def State.timeAt (s : State) (core : Nat) : Word :=
  BitVec.ofNat 64 (s.clk.now / 2 ^ 32 - Config.fieldLag (fieldOf (homeCluster core)) % 5)

/-! ### Counters (R402, R434) -/

/-- Does a select word {EVT [15:8], ALL [3], CTX [2:0]} count an event of a context? -/
def selCounts (sel : BitVec 16) (ev ctx : Nat) : Bool :=
  fld sel 15 8 == ev && (fld sel 3 3 == 1 || fld sel 2 0 == ctx)

/-- Count `n` occurrences of an event of a context in the performance counters (R402). -/
def Tile.tally (t : Tile) (ev ctx n : Nat) : Tile :=
  t.modCt fun k => { k with pcs := k.pcs.zipWith (fun pc sel => if selCounts sel ev ctx then pc + BitVec.ofNat 48 n else pc) k.sels }

/-- Count one unit (R434). -/
def Tile.countUnit (t : Tile) : Tile :=
  let t := (t.modCt fun k => { k with ucnt := k.ucnt + 1 }).tally 0x02 t.blk.hold 1
  if t.vol.replay.isSome then t.tally 0x0F t.blk.hold 1 else t

/-! ### Pool writes (R245, R298, R400) -/

/-- Mark one pool line dirty (R400). -/
def CountPart.markLine (k : CountPart) (line : Nat) : CountPart :=
  if k.dlb.getLsbD line then k else { k with dlb := k.dlb ||| (1 <<< line), dcnt := k.dcnt + 1 }

/-- Mark `n` lines from a line upward. -/
def CountPart.markLines (k : CountPart) (line : Nat) : Nat → CountPart
  | 0 => k
  | n + 1 => CountPart.markLines (k.markLine line) (line + 1) n

/-- A write to lines [lo, hi] meets the monitor (R298): MCHG is set; a context that waits in MONW goes on with the
next unit and its monitor is disarmed, whether or not results are outstanding to a MONW with S = 1 (DESIGN CHOICE, entry 68). -/
def Ctx.monitored (c : Ctx) (lo hi : Nat) : Ctx :=
  if c.marm && decide (lo ≤ c.mln.toNat) && decide (c.mln.toNat ≤ hi) then
    match c.run with
    | .waiting (.monw len) => { c with mchg := true, marm := false, pc := c.pc + BitVec.ofNat 64 len, run := .ready }
    | _ => { c with mchg := true }
  else c

/-- Words written take the parity of what they hold then (R229). -/
def parWritten (par : List Nat) (off n : Nat) : List Nat := par.filter (fun w => !(decide (off / 8 ≤ w) && decide (8 * w < off + n)))

/-- Every divert slot of the tile, by context and slot. -/
def Tile.slots (t : Tile) : List (Nat × Nat) :=
  (List.range t.nctx).flatMap (fun c => (List.range t.blk.lr.dvs).map (fun k => (c, k)))
/-- The divert slots that software has written, after a write that is not the NI's (R309). -/
def Tile.slotsWritten (t : Tile) (off n : Nat) : List (Nat × Nat) :=
  t.blk.ni.swrote ++ t.slots.filter (fun e =>
    decide (off < t.slotAddr e.1 e.2 + 160) && decide (t.slotAddr e.1 e.2 < off + n) && !t.blk.ni.swrote.contains e)
/-- A divert slot holds what the NI has written into it. -/
def Tile.slotKnown (t : Tile) (c k : Nat) : Tile := t.modNi fun n => { n with swrote := n.swrote.filter (fun e => e != (c, k)) }

/-- Write bytes into a core's pool: the lines become dirty, the monitors of its contexts see the write, and divert slots and
parity bits are kept up with it. -/
def Tile.poolWrite (t : Tile) (off : Nat) (bs : List Byte) : Tile :=
  if bs.length = 0 then t
  else
    let lo := off / 128
    let hi := (off + bs.length - 1) / 128
    { t with
      pool := Mem.write t.pool off bs
      par := parWritten t.par off bs.length
      blk := { t.blk with cx := t.blk.cx.map (fun c => c.monitored lo hi), ni := { t.blk.ni with swrote := t.slotsWritten off bs.length }, ct := t.blk.ct.markLines lo (hi + 1 - lo) } }

/-- A v register of a context: 128 bytes of its context area (R137). -/
def Tile.rv (t : Tile) (c : Nat) (r : RegNo) : Vec := vecOfBytes (Mem.bytes t.pool (ctxArea c + 128 * r.toNat) 128)
def Tile.wv (t : Tile) (c : Nat) (r : RegNo) (v : Vec) : Tile := t.poolWrite (ctxArea c + 128 * r.toNat) (vecBytes v)
/-- The same where only some 64-bit words of the register are written, numbered from 0: the others keep their parity (R229). -/
def Tile.wvOn (t : Tile) (c : Nat) (r : RegNo) (on : Nat → Bool) (v : Vec) : Tile :=
  let base := (ctxArea c + 128 * r.toNat) / 8
  { t.wv c r v with par := t.par.filter (fun w => !(decide (base ≤ w) && decide (w < base + 16) && on (w - base))) }
def State.v (s : State) (r : RegNo) : Vec := s.me.rv s.me.blk.hold r
def State.setV (s : State) (r : RegNo) (x : Vec) : State := s.modMe (fun t => t.wv t.blk.hold r x)
def State.setVOn (s : State) (r : RegNo) (on : Nat → Bool) (x : Vec) : State := s.modMe (fun t => t.wvOn t.blk.hold r on x)
/-- The 64-bit words of a v register in which an element of `w` bits is named. -/
def wordsOf (w : Nat) (en : Nat → Bool) (i : Nat) : Bool := (List.range (64 / w)).any (fun j => en (i * (64 / w) + j))

/-! ### Levels and scopes (R43, R44) -/

/-- The nearest present level at or above a scope code. -/
def widen (pres : BitVec 8) : Nat → Nat → Nat
  | 0, sc => sc
  | fuel + 1, sc => if pres.getLsbD sc then sc else widen pres fuel (sc + 1)

def State.widened (s : State) (sc : Nat) : Nat := widen s.me.blk.lr.pres 8 sc

/-! ### Messages that wait at a tile (R309, R310) -/

/-- Where a waiting message stands: in a receive or task queue (its place there), or in a divert slot (context and
slot). -/
inductive Held where
  | queue (i : Nat)
  | slot (c k : Nat)
  deriving DecidableEq, Repr

/-- The entry of the divert index for a slot (R313). -/
def Tile.divert (t : Tile) (c k : Nat) : Option DivertEntry := t.vol.dix.find? (fun e => e.ctx == c && e.slot == k)
/-- The header that the NI's index holds of a divert slot; 0 where the slot is free. -/
def Tile.slotHdr (t : Tile) (c k : Nat) : Word := ((t.divert c k).map (fun e => e.hdr)).getD 0
/-- The divert slots that hold a message. -/
def Tile.fullSlots (t : Tile) : List (Nat × Nat) := t.slots.filter (fun e => (t.slotHdr e.1 e.2).getLsbD 63)

/-- How long ago an arrival number was given: arrival order modulo 2^32 (R307). -/
def Tile.age (t : Tile) (anum : BitVec 32) : Nat := (t.blk.ni.anum - anum).toNat

/-- The first of the greatest first components. -/
def eldest : List (Nat × Held) → Option Held
  | [] => none
  | (a, h) :: r => match eldest r with
    | none => some h
    | some k => if r.all (fun e => e.1 ≤ a) then some h else some k

/-- The waiting messages that a test on queue messages and on divert headers admits, with their ages. -/
def Tile.waiting (t : Tile) (q : List Msg) (okq : Msg → Bool) (oks : Nat → Word → Bool) : List (Nat × Held) :=
  ((List.range q.length).filterMap (fun i => match q[i]? with
    | some m => if okq m then some (t.age m.anum, Held.queue i) else none
    | none => none)) ++
  t.fullSlots.filterMap (fun e =>
    let h := t.slotHdr e.1 e.2
    if oks e.1 h then some (t.age (h.setWidth 32), Held.slot e.1 e.2) else none)

/-- The message that a RECV of class `cls` by context `c` takes now (R310). -/
def Tile.eligible (t : Tile) (c cls : Nat) : Option Held :=
  eldest (t.waiting t.vol.rq (fun m => m.cls == cls && (m.tcx == c || m.tcx == 15))
    (fun _ h => fld h 50 48 == cls && (fld h 54 51 == c || fld h 54 51 == 15)))

/-- The SPAWN record that a free context takes now (R310). -/
def Tile.nextSpawn (t : Tile) : Option Held :=
  eldest (t.waiting t.vol.taskQ (fun _ => true) (fun _ h => h.getLsbD 55))

/-- The header word of a message (R309). -/
def Msg.hdr (m : Msg) : Word :=
  BitVec.ofNat 64 (2 ^ 63 + m.long.toNat * 2 ^ 56 + m.spawn.toNat * 2 ^ 55 + m.tcx % 16 * 2 ^ 51 + m.cls % 8 * 2 ^ 48 +
    tileY m.src % 256 * 2 ^ 40 + tileX m.src % 256 * 2 ^ 32 + m.anum.toNat)

/-- The header and payload of a waiting message of a queue or slot (R329); of a slot that software has written they are
unspecified (R309): free values, drawn with `fresh`, but for FUL, which the index has seen set. -/
def Tile.peek (t : Tile) (fresh : Nat) (q : List Msg) : Held → Word × List Byte
  | .queue i => match q[i]? with | some m => (m.hdr, m.payload) | none => (0, [])
  | .slot c k =>
    let a := t.slotAddr c k
    let h := t.slotHdr c k
    let n := if h.getLsbD 56 then 128 else 32
    if t.blk.ni.swrote.contains (c, k) then
      (setFld (Config.freeWord fresh) 63 63 1, (List.range n).map (fun i => Config.freeByte fresh (a + 32 + i)))
    else (h, Mem.bytes t.pool (a + 32) n)

/-- Clear the FUL bit of a divert slot (R310): the slot leaves the index. -/
def Tile.clearSlot (t : Tile) (c k : Nat) : Tile :=
  let t := (t.poolWrite (t.slotAddr c k + 7) [Mem.read t.pool (t.slotAddr c k + 7) &&& 0x7F]).slotKnown c k
  { t with vol := { t.vol with dix := t.vol.dix.filter (fun e => !(e.ctx == c && e.slot == k)) } }

/-- The index as a restore or a resume rebuilds it from the headers with FUL set (R313); which slots software has written stands in the
block. -/
def Tile.indexed (t : Tile) : Tile :=
  { t with vol := { t.vol with dix := t.slots.filterMap (fun e =>
      let h := BitVec.ofNat 64 (Mem.nat t.pool (t.slotAddr e.1 e.2) 8)
      if h.getLsbD 63 then some { ctx := e.1, slot := e.2, hdr := h } else none) } }

/-! ### The arrival log (R438, R439) -/

/-- The number of an owner: a core's, or a code of its own; a bank's is its slice's. -/
def ownerCode : Owner → Nat
  | .pool t => t
  | .slice k => 40000 + k
  | .bank k => 40000 + k / 256
  | .port p => 40100 + p
  | .cpx => 40200
  | .belvis p => 40300 + p
  | .milliner f => 40400 + f
  | .router p => 41000 + p

/-- A record of the log with the header fields given. -/
def State.record (s : State) (core : Nat) (kind : LogKind) (ctx : Nat) (rsm : Bool) (data : List Byte)
    (pkt : Option Pkt) : LogRec :=
  { ucnt := (s.tile core).blk.ct.ucnt.setWidth 40, kind := kind, rsm := rsm, ctx := ctx,
    cls := (pkt.map (fun p => p.cls)).getD 0, seq := (pkt.map (fun p => p.seq)).getD 0,
    src := (pkt.map (fun p => ownerCode p.src)).getD 0,
    aux := 0, data := data, durable := false, pkt := pkt, answer := none }

/-- A protected tile of a gang logs its arrivals; a tile under replay logs nothing. -/
def State.logs (s : State) (core : Nat) : Bool :=
  isTile core && (s.tile core).blk.lr.gang.isSome && !(s.fen core).unprotected && (s.tile core).vol.replay.isNone

/-- Put a packet into the source's egress. -/
def State.emit (s : State) (src dst : Owner) (cls seq : Nat) (body : Body) (mask : BitVec 16) (bytes : Nat) (rel : Option Nat) : State :=
  let (id, s) := s.newId
  { s with net := s.net ++ [{ id := id, src := src, dst := dst, cls := cls, seq := seq, body := body, stage := .queued, pcn := 0, mask := mask, bytes := bytes, rel := rel }] }

/-- Append a record to the log of a core that logs: it goes to the buddy over class 7 (R439). -/
def State.addRecord (s : State) (core : Nat) (r : LogRec) : State :=
  if s.logs core then
    let (id, s) := s.newId
    ((s.modFen core fun f => { f with log := f.log ++ [{ r with rid := id }] }).emit (.pool core) (.pool (buddyOf core)) 7 0 (.log id) 0 0 none).modTile core
      (fun t => t.tally 0x0E r.ctx 1)
  else s

/-! ### Channels (R250, R261, R370) -/

/-- A send entry all of whose packets are acknowledged. Channels to home slices and ports stay open: their owners keep what they have
completed of them until release (R371). -/
def Chan.closable (e : Chan) : Bool := e.next == e.una && decide (e.cls ≠ 6 ∨ e.peer < 40000)

/-- The owner that a channel's peer number stands for. -/
def ownerOf (code : Nat) : Owner :=
  if code < 40000 then .pool code else if code < 40100 then .slice (code - 40000) else if code < 40200 then .port (code - 40100) else if code < 40300 then .cpx else if code < 40400 then .belvis (code - 40300) else if code < 41000 then .milliner (code - 40400) else .router (code - 41000)
/-- An owner as packets name it: a bank is that of its home slice. -/
def Owner.home : Owner → Owner
  | .bank k => .slice (k / 256)
  | o => o
def Owner.isBank : Owner → Bool
  | .bank _ => true
  | _ => false

/-- A send entry may be closed (R370): idle, so that no packet of its channel is on its way, with a place for the marker in the
retransmission buffer. -/
def State.idleChan (s : State) (core : Nat) (e : Chan) : Bool :=
  e.closable && !s.net.any (fun p => p.src == .pool core && ownerCode p.dst == e.peer && p.cls == e.cls) && decide ((s.tile core).blk.ni.rtx.length < 32)

/-- AUX of an RSU record: what has happened (entry 21). -/
def rsuReady : Nat := 0
def rsuNotice : Nat := 1
def rsuTask : Nat := 2
def rsuLand : Nat := 3
def rsuBrim : Nat := 4
def rsuLine : Nat := 5
def rsuRead : Nat := 6
def rsuClose : Nat := 7
def rsuIdle : Nat := 8
def rsuQuery : Nat := 9
def rsuRtx : Nat := 10

/-- A channel closes (R370): its entry is free, and the close marker, sent on it, stands in the retransmission buffer until it is
acknowledged. The log says so (entry 21). -/
def State.closeChan (s : State) (core : Nat) (e : Chan) : State :=
  let r := { s.record core .rsu 0 false [] none with aux := rsuIdle, src := e.peer, cls := e.cls }
  let (id, s) := s.newId
  let p : Pkt := { id := id, src := .pool core, dst := ownerOf e.peer, cls := e.cls, seq := e.next.toNat, body := .close e.cls, stage := .queued, pcn := 0, mask := 0, bytes := 0, rel := none }
  ({ s with net := s.net ++ [p] }.modTile core fun t => t.modNi fun k =>
    { k with rtx := k.rtx ++ [p], send := k.send.filter (fun c => !(c.peer == e.peer && c.cls == e.cls)) }).addRecord core r

/-- A close marker of a channel is not acknowledged, or on its way (R370): the channel starts again behind it. -/
def State.closing (s : State) (core peer cls : Nat) : Bool :=
  let marker := fun (p : Pkt) => p.src == .pool core && p.dst == ownerOf peer && p.body == .close cls
  (s.tile core).blk.ni.rtx.any marker || s.net.any marker

/-- Number the next packet of a channel of a core: the next of its send entry, or 0 in a new one, for which an idle channel closes where
the table is full; `none` where no entry is free or closable, or the channel's close marker is still on its way. A core under replay
closes a channel only where its log says so. -/
def State.number (s : State) (core peer cls : Nat) : Option (Nat × State) :=
  let l := (s.tile core).blk.ni.send
  let add := fun (s : State) => s.modTile core fun t => t.modNi fun k => { k with send := k.send ++ [{ peer := peer, cls := cls, next := 1, una := 0 }] }
  match l.find? (fun e => e.peer == peer && e.cls == cls) with
  | some e => some (e.next.toNat, s.modTile core fun t => t.modNi fun k =>
      { k with send := k.send.map (fun c => if c.peer == peer && c.cls == cls then { c with next := c.next + 1 } else c) })
  | none =>
    if s.closing core peer cls then none
    else if l.length < 128 then some (0, add s)
    else if (s.tile core).vol.replay.isSome then none
    else (l.find? (s.idleChan core)).map (fun e => (0, add (s.closeChan core e)))

/-- A packet can be numbered on each of several channels of a class, one after the other. -/
def State.canNumber (s : State) (core cls : Nat) : List Nat → Bool
  | [] => true
  | p :: r => match s.number core p cls with
    | some (_, s) => s.canNumber core cls r
    | none => false

/-! ### Readiness (R55, R58) -/

def Block.jrnOf (b : Block) (c : Nat) : List JEntry := b.ni.journal.filter (fun e => e.ctx % 8 == c % 8)

/-- A home slice's combining buffer holds a reduction of a core (R254). -/
def State.heldReduction (s : State) (core : Nat) : Bool := s.rim.comb.any (fun e => e.2.any (fun k => k.src == core))

/-- Every earlier access of a context has been performed at a scope (R254): its reads have landed; at scope 2 and
wider its journal entries have left; at scope 6 and wider the home slices have applied its core's reductions. `id`
bounds which accesses are earlier. -/
def State.performed (s : State) (core c id scope : Nat) : Bool :=
  let b := (s.tile core).blk
  (b.ctx c).outs.all (fun o => id ≤ o.id || o.kind == .other) &&
    (scope < 2 || (b.jrnOf c).all (fun e => id ≤ e.id)) && (scope < 6 || !s.heldReduction core)

/-- An exchange that names schedule n is running in a core's cluster, or is pending at another of its positions
(R385). -/
def State.scheduleBusy (s : State) (core n : Nat) : Bool :=
  (match (s.cluster (homeCluster core)).running with | none => false | some (m, _) => m == n) ||
    (List.range 16).any (fun q => q != posOf core &&
      match (s.tile (tileAt (homeCluster core) q)).blk.arr.mx with | some (_, _, m) => m == n | none => false)

/-- Misses of a tile in its cluster's TSC request queue (R316); the host's answers there are none. -/
def State.missesOf (s : State) (core : Nat) : Nat :=
  ((s.cluster (homeCluster core)).reqs.filter (fun r => r.pos == posOf core && r.acc != 3)).length

/-- Number of outstanding results at the tile that count against the limit of a kind (R282). -/
def Tile.outKind (t : Tile) (k : OutKind) : Nat :=
  ((t.blk.cx.toList.flatMap (fun c => c.outs)).filter (fun o => o.kind == k || o.kind == .both)).length

/-- Is the wait of a context over? -/
def State.waitOver (s : State) (core c : Nat) (w : Wait) : Bool :=
  let t := s.tile core
  let x := t.ctx c
  match w with
  | .results ids => x.outs.all (fun o => !ids.contains o.id)
  | .fence kind scope =>
    if kind = 1 then x.outs.all (fun o => o.kind == .copy || o.kind == .heron || o.kind == .other)
    else s.performed core c s.nextId scope
  | .jdrain => t.blk.ni.journal.isEmpty
  | .ofence => x.ocnt == 0
  | .release scope => s.performed core c s.nextId scope
  | .image id _ _ => x.outs.all (fun o => o.id != id)
  | .overlayLock => t.blk.en.locks.toList.all (fun l => match l with | some k => !(k.wl && k.src < 16 && decide (k.first.toNat ≤ (x.pc.toNat + 9) / 32) && decide (x.pc.toNat / 32 ≤ k.last.toNat)) | none => true)
  | .wtb n _ _ => !t.blk.sy.arr.getLsbD n
  | .monw _ => x.mchg || !x.marm
  | .park w _ => t.vol.replay.isNone && w != 0 && decide (w.toNat ≤ (s.timeAt core).toNat)
  | .message cls => (t.eligible (c % 8) cls).isSome
  | .xlate slot => !(s.cluster (homeCluster core)).reqs.any (fun r => r.slot == slot && r.ctx == c % 8 && r.pos == posOf core && r.kind != 1)
  | .misses => s.missesOf core < 4
  | .rtx _ => t.vol.replay.isNone && decide (t.blk.ni.rtx.length < 32)
  | .channel peers cls => s.canNumber core cls peers
  | .copyQueue => t.blk.en.copies.length < 16
  | .heron => t.blk.en.queries.length < 4
  | .loads8 => t.outKind .dev < 8
  | .loads32 => t.outKind .pool < 32
  | .window q wm =>
    (match t.blk.ni.win.toList.find? (fun e => e.2 != 0 && e.1.toNat == q) with
      | some e => e.2.toNat < wm
      | none => t.blk.ni.win.toList.any (fun e => e.2 == 0))
  | .requests => (s.cluster (homeCluster core)).reqs.any (fun r => !r.taken)
  | .slices _ => false

/-- A context that may issue; one that waits becomes ready for the delivery of a pending trap (R427). -/
def State.ready (s : State) (core c : Nat) : Bool :=
  match ((s.tile core).ctx c).run with
  | .ready | .stalled => true
  | .waiting w => s.waitOver core c w || (!((s.tile core).ctx c).nest && !((s.tile core).ctx c).apnd.isEmpty)
  | _ => false

/-- The ready context that comes next in ring order after `c`, which itself comes last (R55). -/
def State.nextReady (s : State) (core c : Nat) : Option Nat :=
  ((List.range 8).map (fun i => (c + 1 + i) % 8)).find? (fun k => s.ready core k)

/-- Issue passes on from the context in hand (R55); where none is ready, the last holder stays recorded, and issue is free (R58). -/
def State.pass (s : State) : State :=
  let s := s.modMe (fun t => t.tally 0x03 t.blk.hold 1)
  match s.nextReady s.cur s.me.blk.hold with
  | none => s.modMe (fun t => { t with blk := { t.blk with free := true } })
  | some k => s.modMe (fun t => { t with blk := { t.blk with hold := k, free := false } })

/-! ### Taking an exception (R154, R425, R428) -/

/-- A trap cause of R426. -/
abbrev Cause := Nat
def causeIllegal : Cause := 0x01
def causePrivileged : Cause := 0x02
def causeOverlay : Cause := 0x03
def causeFetch : Cause := 0x04
def causeAlign : Cause := 0x05
def causeBounds : Cause := 0x06
def causeKind : Cause := 0x07
def causeExec : Cause := 0x08
def causePart : Cause := 0x09
def causeLock : Cause := 0x0A
def causePerm : Cause := 0x0B
def causeStable : Cause := 0x0C
def causeOrdered : Cause := 0x0D
def causeSlot : Cause := 0x0E
def causeLease : Cause := 0x0F
def causeAccOwner : Cause := 0x10
def causeArray : Cause := 0x11
def causePairing : Cause := 0x12
def causeStream : Cause := 0x13
def causeStampAge : Cause := 0x14
def causeStampClass : Cause := 0x15
def causeHeron : Cause := 0x16
def causePosted : Cause := 0x17
def causeLoad : Cause := 0x18
def causeMessage : Cause := 0x19
def causeSoftware : Cause := 0x1A
def causePageFault : Cause := 0x1B

/-- The end of a task (R427): TSN advances and the pending entries are discarded. -/
def Ctx.endTask (c : Ctx) : Ctx := { c with tsn := c.tsn + 1, apnd := [] }

/-- The fatal path (R428): EPC, TRA and TRC.CAU are written, NEST and ASY stand, the context stops, and an upcall
that is open is gone (R429). -/
def Ctx.fatal (c : Ctx) (cause : Cause) (tra : Word) : Ctx :=
  { c.endTask with epc := c.pc, tra := tra, trc := setFld c.trc 7 0 cause, run := .stopped true, upGone := true }

/-- Trap.Enter past its checks (R154), for a handler at `h`. -/
def Ctx.enter (c : Ctx) (cause : Cause) (tra h : Word) (asy : Bool) : Ctx :=
  { c with epc := c.pc, tra := tra, pc := h, run := .ready,
           trc := BitVec.ofNat 16 (512 + (if asy then 256 else 0) + cause % 256) }

/-- A supervisor trap (R425): SEPC, SEC, SST[0] and the privilege. -/
def Ctx.enterSupervisor (c : Ctx) (cause : Cause) : Ctx :=
  { c with sepc := c.pc, sec := BitVec.ofNat 64 cause, sst := setFld c.sst 0 0 c.supervisor.toNat,
           supervisor := true, pc := c.svec, run := .ready }

/-- The handler offset for a cause (R425): SVEC on a TSC or rim core, UPV.OVH for the overlay trap, else TRV. -/
def Tile.handler (t : Tile) (core : Nat) (c : Ctx) (cause : Cause) : Word :=
  if !isTile core then c.svec
  else if cause = causeOverlay then BitVec.ofNat 64 (fld t.blk.lr.upv 52 32)
  else t.blk.lr.trv.setWidth 64

/-- First word of a fatal report (R465): x, y, context, cause, EPC. -/
def fatalWord (core ctx : Nat) (cause : Cause) (epc : Word) : Word :=
  BitVec.ofNat 64 (tileX core % 256 * 2 ^ 56 + tileY core % 256 * 2 ^ 48 + ctx % 8 * 2 ^ 40 + cause % 256 * 2 ^ 32 + fld epc 20 0)

/-- A context of a core takes the fatal path: it stops, its pending entries count as lost refusals (R427), and the
tile reports to the command processor (R428); a tile under replay has reported it before (R440). -/
def State.takeFatal (s : State) (core c : Nat) (cause : Cause) (tra : Word) : State :=
  let x := (s.tile core).ctx c
  let s := s.modTile core fun t =>
    (t.modNi fun n => { n with lrc := n.lrc + BitVec.ofNat 32 x.apnd.length }).modCtx c fun k => k.fatal cause tra
  match (s.tile core).blk.lr.gang with
  | none => s
  | some g => if (s.tile core).vol.replay.isSome then s else
    { s with cp := { s.cp with reports := s.cp.reports ++ [(g, fatalWord core c cause x.pc, tra)] } }

/-- TAKING A PRECISE TRAP (R154, R425): context `c` of a core, for the unit at its pc. -/
def State.takeTrap (s : State) (core c : Nat) (cause : Cause) (tra : Word) : State :=
  let t := s.tile core
  let x := t.ctx c
  let h := t.handler core x cause
  if isTile core then
    if x.nest || h = 0 then s.takeFatal core c cause tra
    else s.modTile core fun t => t.modCtx c fun k => k.enter cause tra h false
  else if h = 0 then s.takeFatal core c cause tra
  else s.modTile core fun t => t.modCtx c fun k => k.enterSupervisor cause

/-- RETURN FROM A TRAP OR AN UPCALL (UPRET, R171); `none` where neither is open. -/
def Ctx.upret (c : Ctx) (t : Word) : Option Ctx :=
  if c.nest then some { c with trc := setFld c.trc 9 9 0, pc := t }
  else if c.upCause ≠ 0 then some { c with ups := setFld c.ups 7 0 0, pc := t }
  else none

/-- RETURN FROM A SUPERVISOR TRAP (ERET, R172). -/
def Ctx.eret (c : Ctx) : Ctx :=
  { c with pc := c.sepc, supervisor := c.sst.getLsbD 0, sst := setFld c.sst 0 0 0 }

/-- ENTERING THE PAGE-FAULT UPCALL (R429) for the unit at pc: failing address, tag and answer. -/
def State.enterUpcall (s : State) (core c : Nat) (addr : Word) (tag ans : Nat) : State :=
  let t := s.tile core
  let x := t.ctx c
  let upe := fld t.blk.lr.upv 20 0
  if upe = 0 || x.upCause ≠ 0 || x.nest then s.takeFatal core c causePageFault addr
  else s.modTile core fun t => t.modCtx c fun k =>
    { k with epc := k.pc, tra := addr, pc := BitVec.ofNat 64 upe, run := .ready, upGone := false,
             ups := BitVec.ofNat 64 (tag % 2 ^ 16 * 2 ^ 16 + ans % 256 * 256 + 1) }

/-! ### The issue of one unit -/

/-- What a unit's own effect comes to. -/
inductive Act where
  /-- it executed; the next unit follows -/
  | done (s : State)
  /-- it executed and set pc -/
  | goto (s : State) (t : Word)
  /-- it raises a precise trap and changes nothing (R11) -/
  | trap (c : Cause) (tra : Word)
  /-- it does not issue, its context waits (a switch point) and it issues again whole -/
  | wait (w : Wait) (s : State)
  /-- it does not issue and stalls the tile's issue (an interlock) -/
  | stall
  /-- it issued and its context waits with pc at the unit (WTB, MONW) -/
  | hold (w : Wait) (s : State)
  /-- it executed, set pc and the state of its context, and issue passes on (DONE, BRIMX, PARK) -/
  | away (s : State)
  /-- it named memory that does not exist -/
  | absent

/-- The context in hand goes on: it is ready, or, at a switch marker with results outstanding, it waits for them and
issue passes on (R55, R57). A result that the marked unit itself leaves outstanding counts: R57 does not say whether it does (DESIGN
CHOICE, entry 67). -/
def State.goOn (s : State) (sw : Bool) : State :=
  if sw && !s.cx.outs.isEmpty then
    (s.modCx fun c => { c with run := .waiting (.results (c.outs.map (fun o => o.id))) }).pass
  else s.modCx fun c => { c with run := .ready }

/-- The unit executed and the next unit follows. -/
def State.advance (s : State) (pc : Word) (u : VUnit) : State :=
  ((s.modCx fun c => { c with pc := pc + BitVec.ofNat 64 u.len }).modMe Tile.countUnit).goOn u.sw

/-- The unit does not issue and stalls the tile's issue (R151). -/
def State.stallUnit (s : State) : State := s.modCx fun c => { c with run := .stalled }

/-- The wait of a unit with S = 1 that itself waits while results are outstanding (R55, R57, R93). A far stamped load goes on when its own
bytes and they have landed; WTB, MONW and PARK keep their own wait alone: R55 does not say whether both of its rows must hold (DESIGN
CHOICE, entry 68). -/
def Wait.marked (w : Wait) (ids : List Nat) : Wait :=
  match w with
  | .image id len _ => .image id len (ids.filter (fun i => i != id))
  | w => w

/-- Carry out what a unit's effect comes to, from the state `s` before it. -/
def Act.run (u : VUnit) (s : State) : Act → Host.Outcome State Fault Refusal
  | .done s' => .next (s'.advance s.cx.pc u)
  | .goto s' t => .next (((s'.modCx fun c => { c with pc := t }).modMe Tile.countUnit).goOn u.sw)
  | .trap c tra => .next (((s.modMe Tile.countUnit).takeTrap s.cur s.me.blk.hold c tra).pass)
  | .wait w s' => .next ((s'.modCx fun c => { c with run := .waiting w }).pass)
  | .stall => .next s.stallUnit
  | .hold w s' => .next (((s'.modMe Tile.countUnit).modCx fun c =>
      { c with run := .waiting (if u.sw then w.marked (c.outs.map (fun o => o.id)) else w) }).pass)
  | .away s' => .next ((s'.modMe Tile.countUnit).pass)
  | .absent => .fault .noDeviceAddress

/-- The whole predicate of a unit (R93): bit 0 of its predicate register, exclusive-or negate. -/
def State.enabled (s : State) (u : VUnit) : Bool := (s.cx.rp u.pred).getLsbD 0 != u.neg

/-- The outstanding results of registers that a unit names (R55), those that a diversion has discarded too (R149). -/
def Ctx.blocking (c : Ctx) (gs vs : List RegNo) : List Nat :=
  (c.outs.filter (fun o => o.gs.any (fun r => r != 0 && gs.contains r) || o.vs.any (fun r => vs.contains r))).map
    (fun o => o.id)

/-- Issue a unit with a whole predicate that names the given g and v registers (R55, R93): predicated off, the next
unit follows; a register whose result is outstanding makes the context wait; otherwise the effect. -/
def issue (u : VUnit) (gs vs : List RegNo) (f : State → Act) (s : State) : Host.Outcome State Fault Refusal :=
  if s.enabled u then
    match s.cx.blocking gs vs with
    | [] => (f s).run u s
    | ids => (Act.wait (.results ids) s).run u s
  else (Act.done s).run u s

/-- Issue a unit whose predicate is per lane: it names registers whatever the mask (R93, R176). So one with no enabled lane waits for an
outstanding result of a register that it names; the manual says nothing of it (DESIGN CHOICE, entry 68). -/
def issueLanes (u : VUnit) (gs vs : List RegNo) (f : State → Act) (s : State) : Host.Outcome State Fault Refusal :=
  match s.cx.blocking gs vs with
  | [] => (f s).run u s
  | ids => (Act.wait (.results ids) s).run u s

/-- Issue a supervisor-only unit: in user mode it is a privileged trap with TRA = PC, whatever its predicate (R96). -/
def issueSupervisor (u : VUnit) (gs : List RegNo) (f : State → Act) (s : State) : Host.Outcome State Fault Refusal :=
  if s.cx.supervisor then issue u gs [] f s else (Act.trap causePrivileged s.cx.pc).run u s

/-! ### What the log says of an arrival (R438) -/

/-- Append a record of what made `s` of the state `before`; RSM says whether its context has become ready by it (R438). -/
def State.addEffect (s before : State) (core : Nat) (r : LogRec) : State :=
  s.addRecord core { r with rsm := !before.ready core r.ctx && s.ready core r.ctx }

/-- Append a record of what made `s` of the state `before`, with its fields. -/
def State.logEffect (s before : State) (core : Nat) (kind : LogKind) (ctx aux : Nat) (data : List Byte) (pkt : Option Pkt) : State :=
  s.addEffect before core { s.record core kind ctx false data pkt with aux := aux }

/-- Append an arrival to the log. -/
def State.logArrival (s : State) (core : Nat) (kind : LogKind) (ctx : Nat) (rsm : Bool) (data : List Byte)
    (pkt : Option Pkt) : State := s.addRecord core (s.record core kind ctx rsm data pkt)

/-- The first record of a kind at a unit count, and the records without it. -/
def takeRec (kind : LogKind) (n : BitVec 40) : List LogRec → Option (LogRec × List LogRec)
  | [] => none
  | r :: rs => if r.kind = kind ∧ r.ucnt = n then some (r, rs)
    else (takeRec kind n rs).map (fun e => (e.1, r :: e.2))

/-- A reading that the log records and a replay takes from it (R391, R438 RDV): its value and the state after. -/
def State.reading (s : State) (live : Word) : Word × State :=
  let t := s.me
  match t.vol.replay with
  | none => (live, s.logArrival s.cur .rdv t.blk.hold false (leBytes 8 live.toNat) none)
  | some rs =>
    match takeRec .rdv (t.blk.ct.ucnt.setWidth 40) rs with
    | some (r, rest) => (BitVec.ofNat 64 (leNat r.data), s.modMe fun t => (t.modVol fun v => { v with replay := some rest }).tally 0x0E t.blk.hold 1)
    | none => (live, s)

end Sys2Proof.Machine
end

