-- ==== Sys2Proof/Machine/Mesh.lean ====
section
/-! DEFINITION. Where things lie on the wafer: physical clusters, fields, power domains, buddies (R15 to R22), the
Causeway (R354) and hop counts (R359). -/

namespace Sys2Proof.Machine

/-- Coordinates of a physical cluster by its number (R16, R354); each spare field lies against its edge of the array,
centred on it (entry 17). -/
def pcnX (n : Nat) : Int :=
  if n < 1920 then (n % 48 : Nat)
  else
    let i := (n - 1920) % 24
    match (n - 1920) / 24 with
    | 0 => (i % 6 : Nat) - 6
    | 1 => (48 + i % 6 : Nat)
    | _ => (21 + i % 6 : Nat)
def pcnY (n : Nat) : Int :=
  if n < 1920 then (n / 48 : Nat)
  else
    let i := (n - 1920) % 24
    match (n - 1920) / 24 with
    | 0 => (18 + i / 6 : Nat)
    | 1 => (18 + i / 6 : Nat)
    | 2 => (i / 6 : Nat) - 4
    | _ => (40 + i / 6 : Nat)

/-- Power domain of a physical cluster (R20). -/
def domainOf (pcn : Nat) : Nat :=
  let px := if pcn < 1920 then pcn % 48 % 6 else (pcn - 1920) % 24 % 6
  let py := if pcn < 1920 then pcn / 48 % 4 else (pcn - 1920) % 24 / 6
  4 * fieldOf pcn + 2 * (py / 2) + px / 3

/-- The west partner of a logical tile, whose buddy it is (R22). -/
def partnerOf (t : Nat) : Nat := tileNo ((tileX t + 168) % 192) (tileY t)

/-- The Causeway entry of a logical cluster: VLD and PCN; identity where not listed (R354). -/
def State.causeway (s : State) (k : Nat) : Bool × Nat := Tbl.get s.mg.cause k (true, k)
def State.pcnOf (s : State) (k : Nat) : Nat := (s.causeway k).2
/-- A logical cluster is fenced while its VLD is 0 (R354). -/
def State.fenced (s : State) (k : Nat) : Bool := !(s.causeway k).1

/-- The position map of a cluster: router and site of a position (R354). -/
def State.posMap (s : State) (k pos : Nat) : Nat × Nat := Tbl.get (s.cluster k).posmap pos (pos, pos)

/-- The physical cluster of a router, by its coordinates in the grid of routers; none where no router stands. -/
def pcnAt (x y : Int) : Option Nat :=
  let u := x / 4
  let v := y / 4
  let spare := fun (f : Nat) (u v : Int) => some (1920 + 24 * f + v.toNat * 6 + u.toNat)
  if 0 ≤ u ∧ u < 48 ∧ 0 ≤ v ∧ v < 40 then some (v.toNat * 48 + u.toNat)
  else if -6 ≤ u ∧ u < 0 ∧ 18 ≤ v ∧ v < 22 then spare 0 (u + 6) (v - 18)
  else if 48 ≤ u ∧ u < 54 ∧ 18 ≤ v ∧ v < 22 then spare 1 (u - 48) (v - 18)
  else if 21 ≤ u ∧ u < 27 ∧ -4 ≤ v ∧ v < 0 then spare 2 (u - 21) (v + 4)
  else if 21 ≤ u ∧ u < 27 ∧ 40 ≤ v ∧ v < 44 then spare 3 (u - 21) (v - 40)
  else none

/-- A router's number in the OVR table. -/
def routerNo (x y : Int) : Nat := (y + 64).toNat * 1024 + (x + 64).toNat

/-- The neighbour through an output port: 1 north, 2 east, 3 south, 4 west (R354). -/
def through (x y : Int) : Nat → Int × Int
  | 1 => (x, y - 1)
  | 2 => (x + 1, y)
  | 3 => (x, y + 1)
  | _ => (x - 1, y)

/-- The forced first hop at a router for a logical cluster (R354). -/
def State.ovrAt (s : State) (x y : Int) (k : Nat) : Nat := Tbl.get s.mg.ovr (2048 * routerNo x y + k) 0

/-- Output port of a route towards (a, b): x first, or y first. -/
def portXy (x y a b : Int) : Nat := if x < a then 2 else if a < x then 4 else if y < b then 3 else 1
def portYx (x y a b : Int) : Nat := if y < b then 3 else if b < y then 1 else if x < a then 2 else 4
/-- A port that leads to a router; where the mesh ends at a spare field's side, the other axis (R29). -/
def inMesh (x y a b : Int) (port : Nat) : Nat :=
  if (pcnAt (through x y port).1 (through x y port).2).isSome then port
  else if port = 2 ∨ port = 4 then (if y < b then 3 else 1)
  else if x < a then 2 else 4

/-- Hops of a class 1 route to the router (a, b) of logical cluster `k` under a table of forced hops: xy with them (R359), at
most 255. -/
def walk (ovr : Tbl Nat) (k : Nat) (a b x y : Int) : Nat → Nat
  | 0 => 0
  | n + 1 =>
    if x = a ∧ y = b then 0
    else
      let f := Tbl.get ovr (2048 * routerNo x y + k) 0
      let e := through x y (inMesh x y a b (if 1 ≤ f ∧ f ≤ 4 then f else portXy x y a b))
      1 + walk ovr k a b e.1 e.2 n

/-- A latency-row entry (R359), as step 4 of the last Causeway update wrote it: hops from the router at position 0 of one
physical cluster to that of another, saturating at 255. -/
def State.latencyRow (s : State) (from_ dst : Nat) : Nat :=
  let a := (Tbl.get s.mg.rowCause from_ (true, from_)).2
  let b := (Tbl.get s.mg.rowCause dst (true, dst)).2
  walk s.mg.rowOvr dst (4 * pcnX b) (4 * pcnY b) (4 * pcnX a) (4 * pcnY a) 255

/-- Distance of two numbers. -/
def absDiff (a b : Nat) : Nat := (a - b) + (b - a)

/-- HOPS of LATQ (R388). -/
def State.hops (s : State) (src dst : Nat) : Nat :=
  let ra := (s.posMap (clusterOf src) (posOf src)).1
  let rb := (s.posMap (clusterOf dst) (posOf dst)).1
  min 255 (s.latencyRow (clusterOf src) (clusterOf dst) + absDiff (ra % 4) (rb % 4) + absDiff (ra / 4) (rb / 4))

/-- Router coordinates of a tile: of the router that serves it, in the wafer-wide grid of routers. -/
def State.routerOf (s : State) (t : Nat) : Int × Int :=
  let p := s.pcnOf (clusterOf t)
  let r := (s.posMap (clusterOf t) (posOf t)).1
  (4 * pcnX p + (r % 4 : Nat), 4 * pcnY p + (r / 4 : Nat))

end Sys2Proof.Machine
end

