-- ==== Sys2Proof/Machine/Float.lean ====
section
/-! DEFINITION. Number formats and exact arithmetic (R108 to R133 without memory): floats as exact dyadics rounded
once, conversions, block formats, exp2, reciprocals, and the stamped word. Codes of formats and modes are those of
R94. -/

namespace Sys2Proof.Machine

/-- A floating-point format (R108): exponent bits, fraction bits, bias. -/
structure Fmt where
  eb : Nat
  mb : Nat
  bias : Nat
  deriving DecidableEq, Repr

def f32 : Fmt := ⟨8, 23, 127⟩
def f16 : Fmt := ⟨5, 10, 15⟩
def bf16 : Fmt := ⟨8, 7, 127⟩

/-- Canonical NaN, infinity and largest finite of a format (R108, R109), without sign. -/
def Fmt.nan (f : Fmt) : Nat := (2 ^ f.eb - 1) * 2 ^ f.mb + 2 ^ (f.mb - 1)
def Fmt.inf (f : Fmt) : Nat := (2 ^ f.eb - 1) * 2 ^ f.mb
def Fmt.big (f : Fmt) : Nat := f.inf - 1
def Fmt.sign (f : Fmt) (neg : Bool) : Nat := if neg then 2 ^ (f.eb + f.mb) else 0
/-- Exponent of the unit of the last place of a subnormal. -/
def Fmt.emin (f : Fmt) : Int := 1 - f.bias - f.mb

/-- An exact value: a NaN, an infinity, or ± m × 2^e, zero with a sign. -/
inductive FVal where
  | nan
  | inf (neg : Bool)
  | fin (neg : Bool) (m : Nat) (e : Int)
  deriving DecidableEq, Repr

/-- The value of an encoding (R108). -/
def Fmt.val (f : Fmt) (bits : Nat) : FVal :=
  let frac := bits % 2 ^ f.mb
  let ex := bits / 2 ^ f.mb % 2 ^ f.eb
  let neg := bits / 2 ^ (f.mb + f.eb) % 2 == 1
  if ex = 2 ^ f.eb - 1 then (if frac = 0 then .inf neg else .nan)
  else if ex = 0 then .fin neg frac f.emin
  else .fin neg (frac + 2 ^ f.mb) (f.emin + ex - 1)

/-- Rounding up of the magnitude: `sig` kept, `r` of `2^sh` discarded. -/
def roundsUp (mode : Nat) (neg : Bool) (sig r sh : Nat) : Bool :=
  match mode with
  | 1 => false
  | 2 => r != 0 && !neg
  | 3 => r != 0 && neg
  | _ => 2 ^ sh < 2 * r || (2 * r == 2 ^ sh && sig % 2 == 1)

/-- m × 2^e rounded to a multiple of 2^q, as that multiple. -/
def roundAt (mode : Nat) (neg : Bool) (m : Nat) (e q : Int) : Nat :=
  if q ≤ e then m * 2 ^ (e - q).toNat
  else
    let sh := (q - e).toNat
    let sig := m / 2 ^ sh
    if roundsUp mode neg sig (m % 2 ^ sh) sh then sig + 1 else sig

/-- The overflow result of a mode (R110). -/
def Fmt.overflow (f : Fmt) (mode : Nat) (neg : Bool) : Nat :=
  match mode with
  | 1 => f.big
  | 2 => if neg then f.big else f.inf
  | 3 => if neg then f.inf else f.big
  | _ => f.inf

/-- Round an exact value once into a format (R109, R110); subnormals are kept (R111). -/
def Fmt.round (f : Fmt) (mode : Nat) : FVal → Nat
  | .nan => f.nan
  | .inf neg => f.sign neg + f.inf
  | .fin neg m e =>
    if m = 0 then f.sign neg
    else
      let q : Int := max (e + (Nat.log2 m : Int) - (f.mb : Int)) f.emin
      let bits := (q - f.emin).toNat * 2 ^ f.mb + roundAt mode neg m e q
      f.sign neg + (if f.inf ≤ bits then f.overflow mode neg else bits)

/-- The sign of an exact value. -/
def FVal.neg? : FVal → Bool
  | .nan => false
  | .inf n => n
  | .fin n _ _ => n

def FVal.negate : FVal → FVal
  | .nan => .nan
  | .inf n => .inf (!n)
  | .fin n m e => .fin (!n) m e

def FVal.abs : FVal → FVal
  | .nan => .nan
  | .inf _ => .inf false
  | .fin _ m e => .fin false m e

def FVal.finite : FVal → Bool
  | .fin _ _ _ => true
  | _ => false

def FVal.isNan : FVal → Bool
  | .nan => true
  | _ => false

/-- A signed mantissa. -/
def signed (neg : Bool) (m : Nat) : Int := if neg then -(m : Int) else m

/-- The exact sum; the sign of a zero sum is that of R110 for the mode. -/
def FVal.add (mode : Nat) : FVal → FVal → FVal
  | .nan, _ => .nan
  | _, .nan => .nan
  | .inf a, .inf b => if a = b then .inf a else .nan
  | .inf a, .fin _ _ _ => .inf a
  | .fin _ _ _, .inf b => .inf b
  | .fin a m e, .fin b n d =>
    let q := min e d
    let z := signed a (m * 2 ^ (e - q).toNat) + signed b (n * 2 ^ (d - q).toNat)
    if z = 0 then .fin (if m = 0 ∧ n = 0 ∧ a = b then a else mode == 3) 0 q
    else .fin (z < 0) z.natAbs q

/-- The exact product. -/
def FVal.mul : FVal → FVal → FVal
  | .nan, _ => .nan
  | _, .nan => .nan
  | .inf a, .inf b => .inf (a != b)
  | .inf a, .fin b n _ => if n = 0 then .nan else .inf (a != b)
  | .fin a m _, .inf b => if m = 0 then .nan else .inf (a != b)
  | .fin a m e, .fin b n d => .fin (a != b) (m * n) (e + d)

/-- x + y × z, exact (R110: one rounding follows). -/
def FVal.fma (mode : Nat) (x y z : FVal) : FVal := FVal.add mode x (FVal.mul y z)

/-- Magnitudes compared exactly: m × 2^e < n × 2^d. -/
def magLt (m : Nat) (e : Int) (n : Nat) (d : Int) : Bool :=
  let q := min e d
  m * 2 ^ (e - q).toNat < n * 2 ^ (d - q).toNat

/-! ### f32 operations -/

def add32 (mode a b : Nat) : Nat := f32.round mode (FVal.add mode (f32.val a) (f32.val b))
def mul32 (a b : Nat) : Nat := f32.round 0 (FVal.mul (f32.val a) (f32.val b))
/-- Fma of R187: x + y × z rounded once by rne. -/
def fma32 (x y z : FVal) : FVal := f32.val (f32.round 0 (FVal.fma 0 x y z))

/-- A subnormal input of a flushing function is a zero of its sign (R111). -/
def flush32 (bits : Nat) : Nat := if bits / 2 ^ 23 % 256 = 0 then bits / 2 ^ 31 * 2 ^ 31 else bits

/-- Round.Ftz (R111). -/
def ftz : FVal → Nat
  | .nan => f32.nan
  | .inf neg => f32.sign neg + f32.inf
  | .fin neg m e =>
    if m = 0 then f32.sign neg
    else
      let q := e + (Nat.log2 m : Int) - 23
      let sig := roundAt 0 neg m e q
      if q + (Nat.log2 sig : Int) < -126 then f32.sign neg else f32.round 0 (.fin neg sig q)

/-- Sum of a list by pairs, the lower index always the left operand: one level of Sum.Tree (R123, R194). -/
def pairUp {α : Type} (f : α → α → α) : List α → List α
  | a :: b :: r => f a b :: pairUp f r
  | l => l

/-- Sum.Tree over a list of 2^k values. -/
def treeSum {α : Type} (f : α → α → α) (z : α) : Nat → List α → α
  | 0, l => l.headD z
  | n + 1, l => treeSum f z n (pairUp f l)

/-- The order of values with −0 below +0 (R183): a key that rises with the value; not for NaN. -/
def fkey (f : Fmt) (bits : Nat) : Int :=
  let mag := bits % 2 ^ (f.eb + f.mb)
  if bits / 2 ^ (f.eb + f.mb) % 2 = 1 then -(mag : Int) - 1 else mag
/-- The same order with −0 equal to +0 (R190). -/
def fkeyEq (f : Fmt) (bits : Nat) : Int :=
  signed (bits / 2 ^ (f.eb + f.mb) % 2 == 1) (bits % 2 ^ (f.eb + f.mb))

/-- Lesser and greater of two float encodings (R183). -/
def fmin (f : Fmt) (a b : Nat) : Nat :=
  if (f.val a).isNan || (f.val b).isNan then f.nan else if fkey f b < fkey f a then b else a
def fmax (f : Fmt) (a b : Nat) : Nat :=
  if (f.val a).isNan || (f.val b).isNan then f.nan else if fkey f a < fkey f b then b else a

/-! ### Integers -/

/-- The two's complement value of the low `w` bits. -/
def sInt (w n : Nat) : Int := let m := n % 2 ^ w; if 2 * m < 2 ^ w then m else (m : Int) - 2 ^ w
/-- The low `w` bits of an integer. -/
def wrapInt (w : Nat) (z : Int) : Nat := (z % (2 ^ w : Int)).toNat
def clampInt (lo hi z : Int) : Int := max lo (min hi z)

/-- An exact value rounded to an integer by a mode (R113); infinities and NaN are the caller's. -/
def roundInt (mode : Nat) (neg : Bool) (m : Nat) (e : Int) : Int := signed neg (roundAt mode neg m e 0)

/-! ### Element types (R94, R176) -/

def isSignedTy (t : Nat) : Bool := 3 ≤ t && t ≤ 5
/-- The format of a float type code. -/
def fmtOf (t : Nat) : Fmt := match t with | 0 => f32 | 1 => bf16 | _ => f16
def widthOf (t : Nat) : Nat := match t with | 0 => 32 | 1 => 16 | 2 => 16 | 3 => 32 | 4 => 16 | 5 => 8 | 6 => 32 | _ => 8
/-- Least and greatest value of an integer type. -/
def tyMin (t : Nat) : Int := if isSignedTy t then -(2 ^ (widthOf t - 1) : Int) else 0
def tyMax (t : Nat) : Int := if isSignedTy t then 2 ^ (widthOf t - 1) - 1 else 2 ^ widthOf t - 1
/-- The integer value of an element of an integer type. -/
def elInt (t n : Nat) : Int := if isSignedTy t then sInt (widthOf t) n else (n % 2 ^ widthOf t : Nat)
/-- An exact integer as an element: clamped with sat, wrapped otherwise (R114). -/
def elOfInt (t mode : Nat) (z : Int) : Nat :=
  wrapInt (widthOf t) (if mode = 4 then clampInt (tyMin t) (tyMax t) z else z)

/-- An integer as an exact float value. -/
def intVal (z : Int) : FVal := .fin (z < 0) z.natAbs 0

/-- Conversion of one element between types (R113); equal types copy (R191). -/
def convert (src dst mode n : Nat) : Nat :=
  if src = dst then n % 2 ^ widthOf dst
  else if src < 3 then
    if dst < 3 then (fmtOf dst).round mode ((fmtOf src).val n)
    else match (fmtOf src).val n with
      | .nan => 0
      | .inf neg => wrapInt (widthOf dst) (if neg then tyMin dst else tyMax dst)
      | .fin neg m e => wrapInt (widthOf dst) (clampInt (tyMin dst) (tyMax dst) (roundInt mode neg m e))
  else if dst < 3 then (fmtOf dst).round mode (intVal (elInt src n))
  else elOfInt dst mode (elInt src n)

/-! ### Vectors as elements (R108, R176) -/

/-- Elements of `w` bits, element 0 lowest, joined. -/
def packEls (w : Nat) : List Nat → Nat
  | [] => 0
  | x :: xs => x % 2 ^ w + 2 ^ w * packEls w xs

def vecEl (w : Nat) (v : Vec) (i : Nat) : Nat := v.toNat / 2 ^ (w * i) % 2 ^ w
/-- The vector of elements of `w` bits that a function gives. -/
def vecMk (w : Nat) (f : Nat → Nat) : Vec := BitVec.ofNat 1024 (packEls w ((List.range (1024 / w)).map f))
/-- Enabled elements from `f`, the others kept from `old`. -/
def vecUpd (w : Nat) (old : Vec) (en : Nat → Bool) (f : Nat → Nat) : Vec :=
  vecMk w (fun i => if en i then f i else vecEl w old i)

/-! ### Block formats (R115 to R122) -/

/-- A packed group: integers and the E8 exponent code. -/
structure Group where
  q : List Int
  e : Nat
  deriving DecidableEq, Repr

/-- The largest magnitude of finite values, as (m, e). -/
def amaxOf : List FVal → Nat × Int
  | [] => (0, 0)
  | .fin _ m e :: r => let b := amaxOf r; if magLt b.1 b.2 m e then (m, e) else b
  | _ :: r => amaxOf r

/-- Block.Pack (R120) of f32 encodings, for n-bit integers. -/
def blockPack (n : Nat) (x : List Nat) : Group :=
  let v := x.map f32.val
  if v.any (fun a => !a.finite) then { q := x.map (fun _ => 0), e := 0x80 }
  else
    let (am, ae) := amaxOf v
    if am = 0 then { q := x.map (fun _ => 0), e := 0 }
    else
      let e := clampInt (-127) 127 (ae + (Nat.log2 am : Int) - ((n : Int) - 2))
      let lim : Int := 2 ^ (n - 1) - 1
      { q := v.map (fun a => match a with
          | .fin neg m d => clampInt (-lim) lim (roundInt 0 neg m (d - e))
          | _ => 0),
        e := wrapInt 8 e }

/-- Block.Ternary (R121) of f32 encodings with the threshold T. -/
def blockTernary (x : List Nat) (th : Nat) : Group :=
  let v := x.map f32.val
  if v.any (fun a => !a.finite) then { q := x.map (fun _ => 0), e := 0x80 }
  else
    let (am, ae) := amaxOf v
    if am = 0 then { q := x.map (fun _ => 0), e := 0 }
    else
      let l := Nat.log2 am
      let e := ae + (l : Int)
      let e := clampInt (-127) 127 (if 3 * 2 ^ l ≤ 2 * am then e + 1 else e)
      { q := v.map (fun a => match a, f32.val th with
          | .fin neg m d, .fin _ tm te => if m = 0 || magLt m d (tm * am) (te + ae) then 0 else if neg then -1 else 1
          | _, _ => 0),
        e := wrapInt 8 e }

/-- Block.Value (R122) in a float format. -/
def blockValue (f : Fmt) (q : Int) (e : Nat) : Nat :=
  if e = 0x80 then f.nan else f.round 0 (.fin (q < 0) q.natAbs (sInt 8 e))

/-! ### Exp2 (R125 to R127), VRCP and VRSQ (R187, R188) -/

/-- The greatest number below 2^n for which a falling test holds, bit by bit from bit n − 1. -/
def greatest (ok : Nat → Bool) : Nat → Nat → Nat
  | 0, acc => acc
  | n + 1, acc => if ok (acc + 2 ^ n) then greatest ok n (acc + 2 ^ n) else greatest ok n acc

/-- Exp2.Table (R127): 2^(i/256) rounded to f32, from T = floor(2^24 × 2^(i/256)). -/
def exp2Table (i : Nat) : Nat :=
  let t := greatest (fun t => t ^ 256 ≤ 2 ^ (24 * 256 + i)) 26 0
  0x3F800000 - 2 ^ 23 + (t + 1) / 2

def fone : FVal := .fin false 1 0

/-- Exp2.Eval (R125, R126). -/
def exp2 (x : Nat) : Nat :=
  match f32.val x with
  | .nan => f32.nan
  | .inf neg => if neg then 0 else f32.inf
  | .fin neg m e =>
    if x / 2 ^ 23 % 256 = 0 then 0x3F800000
    else if !neg && !magLt m e 1 7 then f32.inf
    else if neg && magLt 126 0 m e then 0
    else
      -- x in units of 2^-q: exact
      let q := (-(min e 0)).toNat
      let z : Int := signed neg (m * 2 ^ (e + q).toNat)
      let n := Int.fdiv z (2 ^ q)
      let f := (z - n * 2 ^ q).toNat
      let i := f * 256 / 2 ^ q
      let r : FVal := .fin false (f * 256 - i * 2 ^ q) (-(q : Int) - 8)
      let a := ftz (FVal.mul (f32.val 0x3E75FDF0) r)
      let a := ftz (FVal.add 0 (f32.val 0x3F317218) (f32.val a))
      let a := ftz (FVal.mul (f32.val a) r)
      let a := ftz (FVal.add 0 fone (f32.val a))
      let y := ftz (FVal.mul (f32.val (exp2Table i)) (f32.val a))
      ftz (FVal.mul (f32.val y) (.fin false 1 n))

/-- n / d rounded to f32 by rne; the discarded part is kept as a sticky bit. -/
def ratio32 (n d : Nat) : Nat :=
  let m := n * 2 ^ 60 / d
  f32.round 0 (.fin false (2 * m + (if n * 2 ^ 60 % d = 0 then 0 else 1)) (-61))

/-- Rcp.Table (R187). -/
def rcpTable (k : Nat) : Nat := ratio32 512 (513 + 2 * k)
/-- Rsq.Table (R188): sqrt(128 / (129 + 2k)), never exact. -/
def rsqTable (k : Nat) : Nat :=
  let m := greatest (fun t => t * t * (129 + 2 * k) ≤ 128 * 2 ^ 100) 51 0
  f32.round 0 (.fin false (2 * m + 1) (-51))

/-- VRCP of one element (R187). -/
def rcp32 (x : Nat) : Nat :=
  match f32.val x with
  | .nan => f32.nan
  | .inf neg => f32.sign neg
  | .fin neg m0 e0 =>
    if m0 = 0 then f32.sign neg + f32.inf
    else
      let l := Nat.log2 m0
      let m : FVal := .fin false m0 (-(l : Int))
      let e : Int := e0 + l
      let k := (m0 - 2 ^ l) * 256 / 2 ^ l
      let y := f32.val (rcpTable k)
      let y := fma32 y y (fma32 fone m.negate y)
      let y := fma32 y y (fma32 fone m.negate y)
      f32.round 0 (FVal.mul y (.fin neg 1 (-e)))

/-- One refinement step of VRSQ. -/
def rsqStep (m y : FVal) : FVal :=
  let t := f32.val (f32.round 0 (FVal.mul y y))
  fma32 y (FVal.mul (.fin false 1 (-1)) y) (fma32 fone m.negate t)

/-- VRSQ of one element (R188). -/
def rsq32 (x : Nat) : Nat :=
  match f32.val x with
  | .nan => f32.nan
  | .inf neg => if neg then f32.nan else 0
  | .fin neg m0 e0 =>
    if m0 = 0 then f32.sign neg + f32.inf
    else if neg then f32.nan
    else
      let l := Nat.log2 m0
      let e : Int := e0 + l
      let odd := e % 2 = 1
      let m : FVal := .fin false m0 (if odd then 1 - (l : Int) else -(l : Int))
      let e := if odd then e - 1 else e
      let k := ((if odd then 2 else 1) * m0 - 2 ^ l) * 64 / 2 ^ l
      let y := rsqStep m (rsqStep m (f32.val (rsqTable k)))
      f32.round 0 (FVal.mul y (.fin false 1 (-(e / 2))))

/-! ### Stamped words (R128 to R132) -/

def stampOf (w : Nat) : Nat := w / 2 ^ 40 % 2 ^ 24
def classOf (w : Nat) : Nat := w / 2 ^ 36 % 16
def stampVld (w : Nat) : Bool := w / 2 ^ 35 % 2 == 1
def stampSat (w : Nat) : Bool := w / 2 ^ 33 % 2 == 1
def stampVal (w : Nat) : Nat := w % 2 ^ 32

/-- A stamped word from its fields; SWP and the reserved bit are 0. -/
def stampWord (stamp cls : Nat) (vld sat : Bool) (val : Nat) : Nat :=
  stamp % 2 ^ 24 * 2 ^ 40 + cls % 16 * 2 ^ 36 + vld.toNat * 2 ^ 35 + sat.toNat * 2 ^ 33 + val % 2 ^ 32

/-- What a stamped operation comes to: a value, or the fault of R416. -/
inductive Stamped where
  | ok (v : Nat)
  | age
  | cls
  deriving DecidableEq, Repr

/-- The product of R130 over the bits of delta, from entry k upward. -/
def decayProd (table : Nat → Nat) (delta : Nat) : Nat → Nat → Nat → Nat
  | 0, _, p => p
  | n + 1, k, p =>
    decayProd table delta n (k + 1)
      (if delta / 2 ^ k % 2 = 1 then ftz (FVal.mul (f32.val (flush32 p)) (f32.val (flush32 (table k)))) else p)

/-- Stamp.Read (R130); `table c k` is the active decay entry. -/
def stampRead (table : Nat → Nat → Nat) (w g : Nat) : Stamped :=
  if !stampVld w then .ok 0
  else
    let delta := (g + 2 ^ 24 - stampOf w) % 2 ^ 24
    if 2 ^ 23 ≤ delta then .age
    else if delta = 0 ∨ classOf w = 0 then .ok (stampVal w)
    else
      let p := decayProd (table (classOf w)) delta 23 0 0x3F800000
      .ok (ftz (FVal.mul (f32.val (flush32 p)) (f32.val (flush32 (stampVal w)))))

/-- The sum of Stamp.Add and Stamp.Merge with SAT applied (R131). -/
def stampSum (sat : Bool) (a b : Nat) : Nat :=
  let y := ftz (FVal.add 0 (f32.val (flush32 a)) (f32.val (flush32 b)))
  match f32.val y with
  | .inf neg => if sat && (f32.val a).finite && (f32.val b).finite then f32.sign neg + f32.big else y
  | _ => y

/-- Stamp.Add (R131). -/
def stampAdd (table : Nat → Nat → Nat) (w x g c : Nat) : Stamped :=
  match stampRead table w g with
  | .ok old => .ok (stampWord g (if stampVld w then classOf w else c) true (stampSat w) (stampSum (stampSat w) old x))
  | o => o

/-- Stamp.Merge (R132). With u invalid the prose has a returned word with SWP and bit 32 clear, the pseudocode and R420 leave w unchanged:
the model leaves it unchanged (DEDUCED, log entry 67). -/
def stampMerge (table : Nat → Nat → Nat) (u w g : Nat) : Stamped :=
  if !stampVld u then .ok w
  else
    let du := (g + 2 ^ 24 - stampOf u) % 2 ^ 24
    if !stampVld w then
      if 2 ^ 23 ≤ du then .age
      else .ok (stampWord (stampOf u) (classOf u) true (stampSat u) (stampVal u))
    else if classOf u ≠ classOf w then .cls
    else
      let dw := (g + 2 ^ 24 - stampOf w) % 2 ^ 24
      if 2 ^ 23 ≤ du ∨ 2 ^ 23 ≤ dw then .age
      else
        let later := if du ≤ dw then u else w
        let earlier := if du ≤ dw then w else u
        match stampRead table earlier (stampOf later) with
        | .ok ve => .ok (stampWord (stampOf later) (classOf later) true (stampSat later)
            (stampSum (stampSat later) (stampVal later) ve))
        | o => o

end Sys2Proof.Machine
end

