-- ==== Sys2Proof/Machine/Flags.lean ====
section
/-! DEFINITION. Conditions. The instruction set has no flag register (R112, R156): what other machines keep in flags is
a compare written to a register (R156), a branch condition (R165), a predicate bit (R190, R198) or a status bit of a
context (R145). The compares and predicate masks are here. -/

namespace Sys2Proof.Machine

/-- The relations of SEQ, SLT, SLTU (R156) and of the compare-and-branch units (R165). -/
def condEq (x y : Word) : Bool := x == y
def condLt (x y : Word) : Bool := BitVec.slt x y
def condLtu (x y : Word) : Bool := BitVec.ult x y

/-- Is lane `j` enabled by a unit's predicate (R93)? -/
def State.lane (s : State) (u : VUnit) (j : Nat) : Bool := (s.cx.rp u.pred).getLsbD j != u.neg

/-- Is element `i` of width `w` bits enabled (R176)? -/
def State.elem (s : State) (u : VUnit) (w i : Nat) : Bool := s.lane u (i * w / 32)

/-- The mask M of enabled lanes (R198). -/
def State.mask (s : State) (u : VUnit) : BitVec 32 :=
  if u.neg then ~~~ (s.cx.rp u.pred) else s.cx.rp u.pred

/-- A predicate register with its enabled bits taken from `f`, the others kept (R190, R198). -/
def predUpd (old mask new : BitVec 32) : BitVec 32 := (old &&& ~~~ mask) ||| (new &&& mask)

/-- The relations of R190 on elements of a type: 0 =, 1 <, 2 ≤. -/
def elRel (t rel a b : Nat) : Bool :=
  if t < 3 then
    let f := fmtOf t
    if (f.val a).isNan || (f.val b).isNan then false
    else match rel with
      | 0 => fkeyEq f a == fkeyEq f b
      | 1 => fkeyEq f a < fkeyEq f b
      | _ => fkeyEq f a ≤ fkeyEq f b
  else match rel with
    | 0 => elInt t a == elInt t b
    | 1 => elInt t a < elInt t b
    | _ => elInt t a ≤ elInt t b

/-- Is the value word of a bool 1? -/
def bitOf (b : Bool) : Nat := b.toNat

end Sys2Proof.Machine
end

