-- ==== Sys2Proof/Machine/Operands.lean ====
section
/-! DEFINITION. Operand forms: x and y of the A2 and A2I patterns (R156), the unary A1 forms, the address of the M
pattern (R277), and the registers that each form names (for the outstanding-result rule of R55). -/

namespace Sys2Proof.Machine

/-- Pattern A2 (R156): without XR x = g(a), y = g(b); with XR x = g(b), y = g(c). -/
def State.x2 (s : State) (u : VUnit) : Word := if u.xr then s.g u.b else s.g u.a
def State.y2 (s : State) (u : VUnit) : Word := if u.xr then s.g u.c else s.g u.b
/-- Pattern A2I (R156): x = g(a) without XR, g(c) with XR; y is the IK immediate. -/
def State.x2i (s : State) (u : VUnit) : Word := if u.xr then s.g u.c else s.g u.a

/-- Registers an A2 unit names. -/
def regs2 (u : VUnit) : List RegNo := if u.xr then [u.a, u.b, u.c] else [u.a, u.b]
/-- Registers an A2I unit names. -/
def regs2i (u : VUnit) : List RegNo := if u.xr then [u.a, u.c] else [u.a]

/-- The same forms for v operands (R183). -/
def State.vx2 (s : State) (u : VUnit) : Vec := if u.xr then s.v u.b else s.v u.a
def State.vy2 (s : State) (u : VUnit) : Vec := if u.xr then s.v u.c else s.v u.b
def State.vx2i (s : State) (u : VUnit) : Vec := if u.xr then s.v u.c else s.v u.a
/-- The same forms for p operands (R198). -/
def State.px2 (s : State) (u : VUnit) : BitVec 32 := if u.xr then s.p u.b else s.p u.a
def State.py2 (s : State) (u : VUnit) : BitVec 32 := if u.xr then s.p u.c else s.p u.b

/-- The address of a pattern M unit (R277): base and offset, and the index with XR; modulo 2^64. -/
def State.addrM (s : State) (u : VUnit) : Word :=
  s.g u.b + u.io + (if u.xr then s.g u.c else 0)
/-- Registers that name a pattern M address. -/
def regsM (u : VUnit) : List RegNo := if u.xr then [u.b, u.c] else [u.b]

/-- The branch target PC + 2 × offset (R164, R165). -/
def target (pc off : Word) : Word := pc + off + off

/-- The link: PC + 2 × (words in the unit) (R164). -/
def State.link (s : State) (u : VUnit) : Word := s.cx.pc + BitVec.ofNat 64 u.len

/-- A destination word with bits [n−1:0] of x and the sign or zero above (R159, R160). -/
def keepBits (n : Nat) (sign : Bool) (x : Word) : Word :=
  if sign then BitVec.ofInt 64 (sInt n x.toNat) else BitVec.ofNat 64 (x.toNat % 2 ^ n)

end Sys2Proof.Machine
end

