-- ==== Sys2Proof/Machine/Control.lean ====
section
/-! DEFINITION. Page 0: transfers of control, task end, parking, traps and system registers (R163 to R174). -/

namespace Sys2Proof.Machine

/-! ### Transfers (R163 to R167) -/

/-- BR (R164). -/
def execBr (u : VUnit) (s : State) : Host.Outcome State Fault Refusal :=
  issue u [] [] (fun s => .goto s (target s.cx.pc u.ib)) s
/-- CALL (R164): the link in g63. -/
def execCall (u : VUnit) (s : State) : Host.Outcome State Fault Refusal :=
  issue u [63] [] (fun s => .goto (s.setG 63 (s.link u)) (target s.cx.pc u.ib)) s

/-- A compare-and-branch unit (R165). -/
def branch (cond : Word → Word → Bool) (u : VUnit) (s : State) : Host.Outcome State Fault Refusal :=
  issue u [u.a, u.b] [] (fun s => if cond (s.g u.a) (s.g u.b) then .goto s (target s.cx.pc u.ic) else .done s) s

/-- CBEQ (R165). -/
def execCbeq (u : VUnit) (s : State) : Host.Outcome State Fault Refusal := branch condEq u s
/-- CBNE (R165). -/
def execCbne (u : VUnit) (s : State) : Host.Outcome State Fault Refusal := branch (fun x y => !condEq x y) u s
/-- CBLT (R165). -/
def execCblt (u : VUnit) (s : State) : Host.Outcome State Fault Refusal := branch condLt u s
/-- CBGE (R165). -/
def execCbge (u : VUnit) (s : State) : Host.Outcome State Fault Refusal := branch (fun x y => !condLt x y) u s
/-- CBLTU (R165). -/
def execCbltu (u : VUnit) (s : State) : Host.Outcome State Fault Refusal := branch condLtu u s
/-- CBGEU (R165). -/
def execCbgeu (u : VUnit) (s : State) : Host.Outcome State Fault Refusal := branch (fun x y => !condLtu x y) u s

/-- LOOP (R166): g(b) is read before g(a) is written. -/
def execLoop (u : VUnit) (s : State) : Host.Outcome State Fault Refusal :=
  issue u [u.a, u.b] [] (fun s =>
    let y := s.g u.b
    let n := s.g u.a - 1
    let t := s.setG u.a n
    if n ≠ y then .goto t (target s.cx.pc u.ic) else .done t) s

/-- CALLR (R167): g(b) is read before g63 is written. -/
def execCallr (u : VUnit) (s : State) : Host.Outcome State Fault Refusal :=
  issue u [u.b, 63] [] (fun s => .goto (s.setG 63 (s.link u)) (s.g u.b)) s
/-- JMPR (R167). -/
def execJmpr (u : VUnit) (s : State) : Host.Outcome State Fault Refusal :=
  issue u [u.b] [] (fun s => .goto s (s.g u.b)) s
/-- RET (R167). -/
def execRet (u : VUnit) (s : State) : Host.Outcome State Fault Refusal :=
  issue u [63] [] (fun s => .goto s (s.g 63)) s

/-! ### Task end and parking (R168, R169) -/

/-- The end of the task of the context in hand (R53, R168, R297, R427): TSN advances, pending refusals are discarded
and counted, the monitor is disarmed, and the context waits under R53. -/
def State.endTask (s : State) : State :=
  let n := s.cx.apnd.length
  (s.modMe fun t => t.modNi fun k => { k with lrc := k.lrc + BitVec.ofNat 32 n }).modCx fun c =>
    { c.endTask with marm := false, run := .ending c.diverted }

/-- DONE (R168): ends the task; in a diverted context it acts as BRIMX. -/
def execDone (u : VUnit) (s : State) : Host.Outcome State Fault Refusal :=
  issue u [] [] (fun s => .away s.endTask) s

/-- PARK (R169): the check of UPS.ANS and of the time and the start of the wait are one step; pc names PARK while it waits (R427)
and the unit after it once it has become ready. The wake check reads device time (R391). -/
def execPark (u : VUnit) (s : State) : Host.Outcome State Fault Refusal :=
  issue u [u.a] [] (fun s =>
    let w := s.g u.a
    if s.cx.ans ≠ 0 then .done s
    else
      let (now, s') := if w = 0 then (0, s) else s.reading (s.timeAt s.cur)
      if w ≠ 0 ∧ w.toNat ≤ now.toNat then .done s'
      else .hold (.park w u.len) s') s

/-! ### Traps and returns (R170 to R172) -/

/-- TRAP (R170): the software trap; TRA holds the code and the next unit's offset. -/
def execTrap (u : VUnit) (s : State) : Host.Outcome State Fault Refusal :=
  issue u [] [] (fun s => .trap causeSoftware ((u.ik <<< 32) ||| s.link u)) s

/-- UPRET (R171). -/
def execUpret (u : VUnit) (s : State) : Host.Outcome State Fault Refusal :=
  issue u [u.b] [] (fun s =>
    match s.cx.upret (s.g u.b) with
    | some c => .goto (s.modCx fun _ => c) (s.g u.b)
    | none => .trap causeIllegal s.cx.pc) s

/-- ERET (R172). -/
def execEret (u : VUnit) (s : State) : Host.Outcome State Fault Refusal :=
  issueSupervisor u [] (fun s => .goto (s.modCx Ctx.eret) s.cx.sepc) s

/-! ### System registers (R144 to R147, R173, R174) -/

/-- LVL (R147). -/
def LaunchRegs.lvl (r : LaunchRegs) : Word :=
  BitVec.ofNat 64 (r.bh.toNat * 2 ^ 16 + r.bw.toNat * 2 ^ 8 + r.pres.toNat)

/-- The value of a system register, zero-extended; `none` for an unassigned number. -/
def State.sysRead (s : State) (n : Nat) : Option Word :=
  let t := s.me
  let r := t.blk.lr
  let c := s.cx
  match n with
  | 0x000 => some (r.xb.setWidth 64)
  | 0x001 => some (BitVec.ofNat 64 t.blk.hold)
  | 0x002 => some (r.tid.setWidth 64)
  | 0x003 => some (BitVec.ofNat 64 r.rank)
  | 0x004 => some (BitVec.ofNat 64 r.gxo)
  | 0x005 => some (BitVec.ofNat 64 r.gyo)
  | 0x006 => some (BitVec.ofNat 64 r.gw)
  | 0x007 => some (BitVec.ofNat 64 r.gh)
  | 0x008 => some r.lvl
  | 0x009 => some r.part
  | 0x00A => some (boolWord r.ord)
  | 0x00B => some (c.tth.setWidth 64)
  | 0x010 => some r.dln
  | 0x011 => some r.brt
  | 0x012 => some r.vwd
  | 0x013 => some r.steps
  | 0x014 => some (r.lscl.setWidth 64)
  | 0x015 => some (t.vol.mapg.setWidth 64)
  | 0x018 => some r.upv
  | 0x019 => some c.ups
  | 0x01C => some (r.trv.setWidth 64)
  | 0x01D => some (c.trc.setWidth 64)
  | 0x01E => some c.tra
  | 0x01F => some r.jix
  | 0x020 => some (BitVec.ofNat 64 (fld c.epc 20 0))
  | 0x100 => some c.sst
  | 0x101 => some c.sepc
  | 0x102 => some c.sec
  | 0x103 => some c.svec
  | 0x104 => some c.asn
  | 0x105 => some c.psd
  | 0x106 => some c.hbc
  | _ => none

/-- An entry offset is even and below XB (R146). -/
def entryOk (xb : BitVec 21) (e : Nat) : Bool := e % 2 == 0 && e < xb.toNat

/-- SETS of a register (R146, R147, R174): the value is narrowed to the register's width and reserved fields are
ignored; `none` where the value breaks a rule of R146 or the number is not writable. -/
def State.sysWrite (s : State) (n : Nat) (x : Word) : Option State :=
  let t := s.me
  match n with
  | 0x000 =>
    let xb := fld x 20 0
    if xb % 128 = 0 ∧ xb ≤ t.lim then some (s.modMe fun t => t.modLr fun r => { r with xb := BitVec.ofNat 21 xb }) else none
  | 0x00B => some (s.modCx fun c => { c with tth := x.setWidth 32 })
  | 0x018 =>
    if entryOk t.blk.lr.xb (fld x 20 0) && entryOk t.blk.lr.xb (fld x 52 32) then
      some (s.modMe fun t => t.modLr fun r => { r with upv := x &&& 0x001FFFFF001FFFFF })
    else none
  | 0x019 => some (s.modCx fun c => { c with ups := x &&& 0xFFFFFFFF })
  | 0x01C =>
    if entryOk t.blk.lr.xb (fld x 20 0) then
      some (s.modMe fun t => t.modLr fun r => { r with trv := x.setWidth 21 })
    else none
  | 0x01D => some (s.modCx fun c => { c with trc := x.setWidth 16 &&& 0x3FF })
  | 0x01E => some (s.modCx fun c => { c with tra := x })
  | 0x01F => some (s.modMe fun t => t.modLr fun r => { r with jix := x &&& 0x800000000000003F })
  | 0x020 => some (s.modCx fun c => { c with epc := x &&& 0x1FFFFF })
  | 0x100 => some (s.modCx fun c => { c with sst := x &&& 0x3 })
  | 0x101 => some (s.modCx fun c => { c with sepc := x })
  | 0x102 => some (s.modCx fun c => { c with sec := x })
  | 0x103 => some (s.modCx fun c => { c with svec := x })
  | 0x104 => some (s.modCx fun c => { c with asn := x &&& 0xFFFF })
  | 0x105 => some (s.modCx fun c => { c with psd := x })
  | 0x106 =>
    let s := s.modCx fun c => { c with hbc := x }
    some (if isTsc s.cur then s.modCluster (s.cur - tscBase) fun k => { k with tscBeat := true } else s)
  | _ => none

/-- The access checks of R144 that depend only on the unit and the mode: made whether or not the predicate enables
the unit. -/
def sysCheck (supervisor write : Bool) (n : Nat) (pc : Word) (xi : Nat) : Option Act :=
  match sysAccess n with
  | none => some (.trap causeIllegal (pc + BitVec.ofNat 64 (2 * xi)))
  | some (ur, uw, sw) =>
    if !supervisor && !ur then some (.trap causePrivileged pc)
    else if write && !(if supervisor then sw else uw) then some (.trap causeIllegal (pc + BitVec.ofNat 64 (2 * xi)))
    else none

/-- GETS (R173). -/
def execGets (u : VUnit) (s : State) : Host.Outcome State Fault Refusal :=
  match sysCheck s.cx.supervisor false u.x s.cx.pc (BadWord.xi.index u) with
  | some a => a.run u s
  | none => issue u [u.a] [] (fun s =>
      match s.sysRead u.x with
      | some v => .done (s.setG u.a v)
      | none => .trap causeIllegal s.cx.pc) s

/-- SETS (R173, R174): a value that breaks a rule is an illegal instruction with TRA = PC. -/
def execSets (u : VUnit) (s : State) : Host.Outcome State Fault Refusal :=
  match sysCheck s.cx.supervisor true u.x s.cx.pc (BadWord.xi.index u) with
  | some a => a.run u s
  | none => issue u [u.b] [] (fun s =>
      match s.sysWrite u.x (s.g u.b) with
      | some s' => .done s'
      | none => .trap causeIllegal s.cx.pc) s

/-! ### Failed fetches (R96, R97, R163) -/

/-- A fetch that gives no unit raises a precise trap of the context in hand. -/
def State.fetchTrap (s : State) (cause : Cause) (tra : Word) : State :=
  ((s.modMe Tile.countUnit).takeTrap s.cur s.me.blk.hold cause tra).pass

/-- ILLEGAL_INSTRUCTION (R96, R97): TRA is the address of the failing word. -/
def execIllegalInstruction (tra : Word) (s : State) : Host.Outcome State Fault Refusal := .next (s.fetchTrap causeIllegal tra)
/-- OVERLAY_TRAP (R96): TRA is the address of the word at or above XB. -/
def execOverlayTrap (tra : Word) (s : State) : Host.Outcome State Fault Refusal := .next (s.fetchTrap causeOverlay tra)
/-- INSTRUCTION_FETCH_TRAP (R163): TRA is the odd target. -/
def execInstructionFetchTrap (tra : Word) (s : State) : Host.Outcome State Fault Refusal := .next (s.fetchTrap causeFetch tra)

end Sys2Proof.Machine
end

