-- ==== Sys2Proof/Machine/Access.lean ====
section
/-! DEFINITION. Data addresses: the spaces and the checks of an access (R230 to R241, R279), translation (R360, R361),
range locks (R263, R364), owners (R237, R240, R246), and the requests that a unit sends to them (R250, R251, R370). -/

namespace Sys2Proof.Machine

/-! ### Range locks (R263, R364) -/

/-- Does an entry cover any 32-byte unit of [lo, hi]? -/
def Lock.covers (l : Lock) (lo hi : Nat) : Bool := decide (l.first.toNat ≤ hi) && decide (lo ≤ l.last.toNat)

/-- The range-lock trap (R263): a load meets a write lock, a store meets any lock. -/
def Tile.lockHit (t : Tile) (write : Bool) (off size : Nat) : Bool :=
  t.blk.en.locks.toList.any (fun l => match l with
    | some k => (write || k.wl) && k.covers (off / 32) ((off + size - 1) / 32)
    | none => false)

/-- The lowest free entry of the range-lock table. -/
def Tile.freeLock (t : Tile) : Option Nat := (List.range 48).find? (fun i => (t.blk.en.locks.toList.getD i none).isNone)

/-- The conditions of R53: results, tokens and in-flight accumulators of a context. -/
def Tile.settled (t : Tile) (c : Nat) : Bool :=
  (t.ctx c).outs.isEmpty && t.blk.en.copies.all (fun k => k.ctx != c) && t.blk.en.queries.all (fun k => k.ctx != c) &&
    t.blk.arr.accs.toList.all (fun a => !(a.ifl && a.own.toNat == c))

/-- No context of the tile can use a binding any more: each is idle, a wait of R53 that has ended counted, or stopped (R268). -/
def Tile.atRest (t : Tile) : Bool :=
  (List.range 8).all (fun c => match (t.ctx c).run with
    | .idle | .stopped _ => true
    | .ending _ => t.settled c
    | _ => false)

/-- A lock held by a binding, of a weight slot or of an XSCH table (R209, R368). -/
def Lock.binding (l : Lock) : Bool := l.src == 32 || l.src == 33 || l.src == 40

/-- An empty weight slot. -/
def WSlot.empty : WSlot := { st := 0, fmt := 0, off := 0, img := [] }

/-- A tile at rest, its array commands done, has released the locks of its bindings (R268); its weight slots become empty with them, since a
slot's image stays locked while the slot refers to it (R209). -/
def Tile.unbind (t : Tile) : Tile :=
  if t.atRest && t.blk.arr.queue.isEmpty then
    (t.modEn fun e => { e with locks := e.locks.map (fun l => match l with
      | some k => if k.binding then none else some k
      | none => none) }).modArr fun a => { a with slots := Vector.replicate 2 WSlot.empty }
  else t

/-- Number of free entries. -/
def Tile.freeLocks (t : Tile) : Nat := (t.blk.en.locks.toList.filter (fun l => l.isNone)).length

/-- Take a lock on `size` bytes from an offset, in the lowest free entry; nothing where none is free. -/
def Tile.lock (t : Tile) (wl : Bool) (src off size : Nat) : Tile :=
  match t.freeLock with
  | none => t
  | some i => t.modEn fun e => { e with locks := e.locks.set! i (some { wl := wl, src := BitVec.ofNat 6 src, last := BitVec.ofNat 16 ((off + size - 1) / 32), first := BitVec.ofNat 16 (off / 32) }) }

/-- Release every entry of a holder. -/
def Tile.unlock (t : Tile) (src : Nat) : Tile :=
  t.modEn fun e => { e with locks := e.locks.map (fun l => match l with
    | some k => if k.src.toNat = src then none else some k
    | none => none) }

/-! ### Translation (R360, R361) -/

/-- Page size of an entry, as a power of two. -/
def pageBits (w1 : Word) : Nat := match fld w1 62 61 with | 0 => 16 | 1 => 21 | _ => 30
def entryVld (w1 : Word) : Bool := w1.getLsbD 63
def entryRd (w1 : Word) : Bool := w1.getLsbD 60
def entryWr (w1 : Word) : Bool := w1.getLsbD 59
def entrySt (w1 : Word) : Bool := w1.getLsbD 58
def entryHs (w1 : Word) : Bool := w1.getLsbD 57
def entryBlv (w1 : Word) : Bool := w1.getLsbD 56

/-- Does an entry hit an address of an ASID and generation (R361)? -/
def entryHits (e : Word × Word) (a : Word) (asid gen : Nat) : Bool :=
  let n := pageBits e.2
  entryVld e.2 && fld e.1 63 62 == fld a 63 62 && fld e.1 56 16 * 2 ^ 16 / 2 ^ n == fld a 56 0 / 2 ^ n &&
    fld e.1 11 0 == asid && fld e.1 15 12 == gen

/-- The physical address that an entry gives. -/
def entryPa (w1 : Word) (a : Word) : Nat :=
  let n := pageBits w1
  fld w1 51 16 * 2 ^ 16 / 2 ^ n * 2 ^ n + a.toNat % 2 ^ n

/-- The entry of a TLB that hits, with its index. -/
def Tlb.hit (t : Tlb) (a : Word) (asid gen : Nat) : Option (Nat × Word × Word) :=
  (t.ents.find? (fun e => entryHits e.2 a asid gen)).map (fun e => (e.1, e.2.1, e.2.2))

/-- A hit counts as use (R361). -/
def Tlb.touch (t : Tlb) (i : Nat) : Tlb := { t with order := t.order.filter (fun k => k != i) ++ [i] }

/-- ASID and generation under which a core's accesses translate (R361, R363). -/
def State.asidGen (s : State) (core : Nat) : Nat × Nat :=
  let a := (s.tile core).blk.lr.asid.toNat
  (a, (Tbl.get (s.cluster (homeCluster core)).gent a 0).toNat)

/-! ### Owners (R237, R238, R240, R246) -/

/-- The home slice of an ordinary device address (R237). -/
def sliceOf (pa : Nat) : Nat :=
  let h := (pa / 2 ^ 13 % 2 ^ 11) ^^^ (pa / 2 ^ 24 % 2 ^ 11) ^^^ (pa / 2 ^ 35 % 2 ^ 11)
  h * 24 / 2 ^ 11
/-- The stack of a Heron-striped page (R238). -/
def heronStack (pa : Nat) : Nat := pa / 2 ^ 21 % 2 ^ 20 % 24
/-- The CXL port of a host address: bit 16, or the other if that one is not ready (R240, R40). -/
def State.portOf (s : State) (pa : Nat) : Nat :=
  let p := pa / 2 ^ 16 % 2
  if s.mg.rdyc.getLsbD p then p else if s.mg.rdyc.getLsbD (1 - p) then 1 - p else p

/-- The end of device memory (R237). -/
def deviceEnd : Nat := 1152 * 2 ^ 30

/-! ### The checks of one element (R279) -/

/-- What an access is: bytes, alignment, permissions it needs, how it meets range locks (`none`: not at all; else
whether it writes), and the spaces it may name, bit 0 own pool, 1 other pools, 2 device, 3 system. -/
structure Access where
  size : Nat
  align : Nat
  rd : Bool
  wr : Bool
  lock : Option Bool
  spaces : Nat
  /-- check 1 of R279, the ordered-mode violation, applies -/
  ord : Bool := true
  deriving DecidableEq, Repr

/-- A place that an access reaches. -/
inductive Place where
  | own (off : Nat)
  /-- at an owner, at an offset or physical address; from a stable page or not -/
  | far (o : Owner) (a : Nat) (st : Bool)
  deriving DecidableEq, Repr

/-- What the checks of one element come to. -/
inductive Found where
  | at (p : Place) (hit : Option Nat)
  | bad (c : Cause)
  | miss
  | absent
  deriving DecidableEq, Repr

/-- Checks 5 to 7 of R279 on the own pool. -/
def Tile.ownCheck (t : Tile) (x : Access) (off : Nat) : Option Cause :=
  if off < t.blk.lr.xb.toNat then some causeExec
  else if t.abase < off + x.size then some causePart
  else match x.lock with
    | some w => if t.lockHit w off x.size then some causeLock else none
    | none => none

/-- The space class of an address that keeps R232: 0 own pool, 1 another tile, 2 device, 3 system; with the tile
named. `none`: a bound is broken. -/
def State.classify (s : State) (a : Word) (size : Nat) : Option (Nat × Nat) :=
  let r := s.me.blk.lr
  match fld a 63 62 with
  | 0 => if fld a 61 21 = 0 ∧ fld a 20 0 + size ≤ 2 ^ 21 then some (0, s.cur) else none
  | 1 =>
    let x := fld a 39 32
    let y := fld a 31 24
    if fld a 61 40 = 0 ∧ fld a 23 21 = 0 ∧ fld a 20 0 + size ≤ 2 ^ 21 ∧ r.gxo ≤ x ∧ x < r.gxo + r.gw ∧ r.gyo ≤ y ∧ y < r.gyo + r.gh
    then some (if tileNo x y = s.cur then (0, s.cur) else (1, tileNo x y)) else none
  | 2 => if fld a 61 48 = 0 ∧ fld a 47 0 + size ≤ 2 ^ 48 then some (2, 0) else none
  | _ => if fld a 61 57 = 0 ∧ fld a 56 0 + size ≤ 2 ^ 57 then some (3, 0) else none

/-- Does an address lie outside the own pool (check 1 of R279)? -/
def State.offPool (s : State) (a : Word) : Bool :=
  match fld a 63 62 with
  | 0 => false
  | 1 => !(fld a 39 32 == tileX s.cur && fld a 31 24 == tileY s.cur)
  | _ => true

/-- The owner and address that a translated device or host address reaches. -/
def State.farPlace (s : State) (cls pa : Nat) (hs st : Bool) : Found :=
  if cls = 2 then
    if deviceEnd ≤ pa then .absent
    else .at (.far (if hs then .bank (256 * heronStack pa + pa / 8192 % 256) else .slice (sliceOf pa)) pa st) none
  else .at (.far (.port (s.portOf pa)) pa st) none

/-- The checks of one element in the order of R279, and where it lies. TSC and rim cores name physical addresses in
space 10, and TSC cores in space 11 (entry 12); optimiser cores reach device memory only (R406). -/
def State.find (s : State) (x : Access) (a : Word) : Found :=
  let t := s.me
  if x.ord && t.blk.lr.ord && s.offPool a then .bad causeOrdered
  else match s.classify a x.size with
  | none => .bad causeBounds
  | some (cls, k) =>
    if a.toNat % x.align ≠ 0 then .bad causeAlign
    else if !x.spaces.testBit cls then .bad causeKind
    else if cls = 0 then
      match t.ownCheck x (fld a 20 0) with
      | some c => .bad c
      | none => .at (.own (fld a 20 0)) none
    else if cls = 1 then .at (.far (.pool k) (fld a 20 0) false) none
    else if cls = 3 ∧ rimBase ≤ s.cur then .bad causeKind
    else if !isTile s.cur then s.farPlace cls (fld a 56 0) false false
    else
      let (asid, gen) := s.asidGen s.cur
      match t.vol.tlbL.hit a asid gen with
      | none => .miss
      | some (i, _, w1) =>
        if entryBlv w1 then .bad causeKind
        else if (x.rd && !entryRd w1) || (x.wr && !entryWr w1) then .bad causePerm
        else if x.wr && entrySt w1 then .bad causeStable
        else match s.farPlace cls (entryPa w1 a) (entryHs w1) (entrySt w1) with
          | .at p _ => .at p (some i)
          | f => f

/-- What the checks of a unit's elements come to (R280): the places and the TLB entries hit; the first element that
fails decides. -/
inductive FoundAll where
  | all (ps : List Place) (hits : List Nat)
  | bad (c : Cause) (a : Word)
  | miss (a : Word)
  | absent
  deriving DecidableEq, Repr

/-- Check every element in ascending order (R280). -/
def State.findAll (s : State) (x : Access) : List Word → FoundAll
  | [] => .all [] []
  | a :: r => match s.find x a with
    | .bad c => .bad c a
    | .miss => .miss a
    | .absent => .absent
    | .at p h => match s.findAll x r with
      | .all ps hs => .all (p :: ps) (h.toList ++ hs)
      | f => f

/-- The first failing byte lane of an own-pool image (R212, R346, R386), as VLD lanes of the same bytes would be
checked: cause and offset. -/
def Tile.imageCheck (t : Tile) (write : Bool) (off size : Nat) : Option (Cause × Nat) :=
  if off < t.blk.lr.xb.toNat then some (causeExec, off)
  else
    let part := if t.abase < off + size then some (max off t.abase) else none
    let locks := t.blk.en.locks.toList.filterMap (fun l => match l with
      | some k => if (write || k.wl) && k.covers (off / 32) ((off + size - 1) / 32) then some (max off (32 * k.first.toNat)) else none
      | none => none)
    let first := locks.foldl (fun (b : Option Nat) k => match b with | none => some k | some j => some (min j k)) none
    match part, first with
    | none, none => none
    | some p, none => some (if p < 2 ^ 21 then causePart else causeBounds, p)
    | none, some k => some (causeLock, k)
    | some p, some k => if p ≤ k then some (if p < 2 ^ 21 then causePart else causeBounds, p) else some (causeLock, k)

/-! ### Misses (R235, R313, R316) -/

/-- Put a miss into the cluster's TSC request queue: the slot it waits on, or the wait for a place. -/
def State.missOf (s : State) (core c kind acc : Nat) (a : Word) : Wait × State :=
  let k := homeCluster core
  let q := (s.cluster k).reqs
  let (asid, gen) := s.asidGen core
  if 4 ≤ s.missesOf core then (.misses, s)
  else match (List.range 64).find? (fun i => q.all (fun r => r.slot != i)) with
    | none => (.misses, s)
    | some i =>
      let r : TscReq := { slot := i, addr := a, acc := acc, kind := kind, pos := posOf core, ctx := c % 8, asid := BitVec.ofNat 12 asid, gen := BitVec.ofNat 4 gen, tag := 0, res := 0, taken := false }
      (.xlate i, ((s.modCluster k fun x => { x with reqs := x.reqs ++ [r] }).modTile core fun t => t.tally 0x0C c 1))

/-- The translation wait of a unit (R235). -/
def State.missWait (s : State) (kind acc : Nat) (a : Word) : Act :=
  let (w, s) := s.missOf s.cur s.me.blk.hold kind acc a
  .wait w s

/-- Hits count as use. -/
def State.touch (s : State) (hits : List Nat) : State :=
  s.modMe fun t => t.modVol fun v => { v with tlbL := hits.foldl Tlb.touch v.tlbL }

/-! ### Journal and requests (R250, R251) -/

/-- Does an operation scan? -/
def MemOp.scans : MemOp → Bool
  | .scan _ _ _ _ => true
  | _ => false

/-- Send a request on class 6 (R250), with the last two fields of the request: a stable page's read, a copy's line. A core under
replay sends no line and no scan: its number is taken, and the request waits to be sent again (R353, R440). -/
def State.requestFor (s : State) (core c : Nat) (o : Owner) (op : MemOp) (jrn out : Option Nat) (addr : Word)
    (rel : Option Nat) (stable : List Nat) (line : Option Nat) : Option State :=
  match s.number core (ownerCode o) 6 with
  | none => none
  | some (seq, s) =>
    let (id, s) := s.newId
    let t := s.tile core
    let r : Req := { id := id, src := core, ctx := c % 8, tsn := (t.ctx c).tsn, op := op, owner := o.home, jrn := jrn, out := out, addr := addr, seq := seq, rel := rel, part := t.blk.lr.prt, heron := o.isBank, stable := stable, line := line }
    let p : Pkt := { id := id, src := .pool core, dst := o.home, cls := 6, seq := seq, body := .req r, stage := .queued, pcn := 0, mask := 0, bytes := 0, rel := rel }
    let s := if (line.isSome || op.scans) && t.vol.replay.isSome then s else { s with net := s.net ++ [p] }
    some (s.modTile core fun t => t.modNi fun k => { k with reqs := k.reqs ++ [r] })

/-- Send a request of a unit. -/
def State.request (s : State) (core c : Nat) (o : Owner) (op : MemOp) (jrn out : Option Nat) (addr : Word)
    (rel : Option Nat) : Option State := s.requestFor core c o op jrn out addr rel [] none

/-- Send several requests, each with the addresses that it reads from stable pages. -/
def State.requests (s : State) (core c : Nat) (jrn out : Option Nat) (rel : Option Nat) :
    List ((Owner × List Nat) × MemOp × Word) → Option State
  | [] => some s
  | ((o, st), op, a) :: r => match s.requestFor core c o op jrn out a rel st none with
    | none => none
    | some s => s.requests core c jrn out rel r

/-- The lowest free journal index (R251). -/
def Tile.freeJournal (t : Tile) : Option Nat :=
  (List.range 64).find? (fun i => t.blk.ni.journal.all (fun e => e.idx.toNat != i))

/-- Take a journal entry for a unit of a context: its identity. -/
def State.journal (s : State) (core c parts : Nat) (out : Option Nat) : Option (Nat × State) :=
  match (s.tile core).freeJournal with
  | none => none
  | some i =>
    let (id, s) := s.newId
    let e : JEntry := { idx := BitVec.ofNat 6 i, id := id, ctx := c % 8, tsn := ((s.tile core).ctx c).tsn, parts := parts, out := out, refused := none }
    some (id, s.modTile core fun t => (t.modNi fun k => { k with journal := k.journal ++ [e] }).tally 0x07 c 1)

/-- Owners of far places, in order of first appearance: one for all that a home slice owns (R237), named by the Heron unit of its
first element where that lies on a striped page. -/
def ownersOf {α : Type} : List (Place × α) → List Owner
  | [] => []
  | (.far o _ _, _) :: r => o :: (ownersOf r).filter (fun k => k.home != o.home)
  | _ :: r => ownersOf r

/-- The far elements of one owner, in order. -/
def partOf {α : Type} (o : Owner) : List (Place × α) → List (Nat × α)
  | [] => []
  | (.far k a _, x) :: r => if k.home = o.home then (a, x) :: partOf o r else partOf o r
  | _ :: r => partOf o r

/-- The addresses of the elements of one owner that lie on stable pages (R239). -/
def stableOf {α : Type} (o : Owner) : List (Place × α) → List Nat
  | [] => []
  | (.far k a st, _) :: r => if k.home = o.home ∧ st = true then a :: stableOf o r else stableOf o r
  | _ :: r => stableOf o r

/-- Codes of the owners that a unit's requests go to: the peers of their channels. -/
def peersOf (os : List Owner) : List Nat := os.map ownerCode

/-- The own-pool elements, in order. -/
def ownPart {α : Type} : List (Place × α) → List (Nat × α)
  | [] => []
  | (.own off, x) :: r => (off, x) :: ownPart r
  | _ :: r => ownPart r

/-! ### Ordering qualifiers (R255, R256, R259, R283) -/

def isAcq (u : VUnit) : Bool := u.ord == 1 || u.ord == 3
def isRel (u : VUnit) : Bool := u.ord == 2 || u.ord == 3

/-- The outstanding acquires, at a scope or wider, that hold the context's accesses (R256). -/
def Ctx.acquires (c : Ctx) (least : Nat) : List Nat :=
  (c.outs.filter (fun o => match o.acq with | some k => least ≤ k | none => false)).map (fun o => o.id)

/-- Hold an access behind the context's outstanding acquires (R256). -/
def State.held (s : State) (least : Nat) (f : State → Act) : Act :=
  match s.cx.acquires least with
  | [] => f s
  | ids => .wait (.results ids) s

/-- The scope at which a write is a release: its own qualifier or a release fence before it (R255, R259). -/
def State.relScope (s : State) (u : VUnit) : Option Nat :=
  match s.cx.relNext, isRel u with
  | none, false => none
  | none, true => some (s.widened u.scope)
  | some k, false => some k
  | some k, true => some (max k (s.widened u.scope))

/-- A release fence applies to the first write after it. -/
def State.released (s : State) : State := s.modCx fun c => { c with relNext := none }

/-- The own-pool release wait (R283): at scope 2 and wider every earlier access must have been performed. -/
def State.relWait (s : State) (rel : Option Nat) (f : State → Act) : Act :=
  match rel with
  | none => f s
  | some k =>
    if 2 ≤ k && !s.performed s.cur s.me.blk.hold s.nextId k then .wait (.release k) s else f s

/-! ### Loads -/

/-- The kind against which a load with these owners counts (R282): a gather may count against both limits. -/
def loadKind (os : List Owner) : OutKind :=
  if os.all (fun o => match o with | .pool _ => true | _ => false) then .pool
  else if os.any (fun o => match o with | .pool _ => true | _ => false) then .both else .dev

/-- The limits of R282 on loads. -/
def State.loadLimit (s : State) (k : OutKind) (f : State → Act) : Act :=
  if k ≠ .pool ∧ 8 ≤ s.me.outKind .dev then .wait .loads8 s
  else if (k = .pool ∨ k = .both) ∧ 32 ≤ s.me.outKind .pool then .wait .loads32 s
  else f s

/-- Add an outstanding result to the context in hand. -/
def State.addOut (s : State) (o : Outs) : State := s.modCx fun c => { c with outs := c.outs ++ [o] }

/-- The bytes of own-pool elements, by their place in the result. -/
def Tile.gather (t : Tile) (z : Nat) : List (Nat × Nat) → List (Nat × Byte)
  | [] => []
  | (off, i) :: r => ((List.range z).map (fun j => (i + j, Mem.read t.pool (off + j)))) ++ t.gather z r

/-- A load of elements of `z` bytes (R281, R284, R286 to R288): each element's place in the result and its address.
`own` is the effect when every element lies in the own pool. -/
def State.load (s : State) (u : VUnit) (x : Access) (z : Nat) (els : List (Nat × Word)) (gs vs : List RegNo)
    (how : Land) (own : State → List (Nat × Byte) → Act) : Act :=
  if els.isEmpty then .done s else
  s.held 0 fun s =>
  match s.findAll x (els.map (fun e => e.2)) with
  | .bad c a => .trap c a
  | .miss a => s.missWait 0 0 a
  | .absent => .absent
  | .all ps hits =>
    let pe := ps.zip els
    let s := s.touch hits
    let near := s.me.gather z (ownPart (pe.map (fun e => (e.1, e.2.1))))
    let rel := if isRel u then some (s.widened u.scope) else none
    match ownersOf pe with
    | [] => s.relWait rel fun s => own s near
    | os =>
      let kind := loadKind os
      s.relWait (if near.isEmpty then none else rel) fun s =>
      s.loadLimit kind fun s =>
      let (id, s) := s.newId
      let o : Outs := { id := id, gs := gs, vs := vs, how := how, kind := kind, need := os.length, got := near, acq := if isAcq u then some (s.widened u.scope) else none, dropped := [] }
      let reqs := os.map (fun o =>
        let part := partOf o pe
        ((o, stableOf o pe), MemOp.read (part.map (fun e => (e.1, e.2.1))) z, ((part.head?).map (fun e => e.2.2)).getD 0))
      match (s.addOut o).requests s.cur s.me.blk.hold none (some id) rel reqs with
      | none => .wait (.channel (peersOf os) 6) s
      | some s => .done (s.modMe fun t => t.tally 0x06 t.blk.hold 1)

/-! ### Posted and own-pool writes -/

/-- What the own-pool part of a write comes to. -/
inductive OwnWrite where
  | ok (t : Tile)
  | bad (c : Cause) (off : Nat)

/-- A write (R285 to R290, R294, R418 to R420): each element's address and data; `own` writes the own-pool elements,
`op` makes an owner's request of its elements. One journal entry serves the whole unit (R290). -/
def State.store {β : Type} (s : State) (u : VUnit) (x : Access) (els : List (Word × β))
    (own : Tile → List (Nat × β) → OwnWrite) (op : List (Nat × β) → MemOp) : Act :=
  if els.isEmpty then .done s else
  s.held 0 fun s0 =>
  let s := s0
  match s.findAll x (els.map (fun e => e.1)) with
  | .bad c a => .trap c a
  | .miss a => s.missWait 0 1 a
  | .absent => .absent
  | .all ps hits =>
    let pe := ps.zip els
    let near := ownPart (pe.map (fun e => (e.1, e.2.2)))
    let rel := s.relScope u
    s.relWait (if near.isEmpty then none else rel) fun s =>
    match own s.me near with
    | .bad c off => .trap c (BitVec.ofNat 64 off)
    | .ok t =>
      let s := ((s.modMe fun _ => t).touch hits).released
      match ownersOf pe with
      | [] => .done s
      | os =>
        match s.journal s.cur s.me.blk.hold os.length none with
        | none => .stall
        | some (j, s) =>
          let reqs := os.map (fun o =>
            let part := partOf o pe
            ((o, []), op (part.map (fun e => (e.1, e.2.2))), ((part.head?).map (fun e => e.2.1)).getD 0))
          match s.requests s.cur s.me.blk.hold (some j) none rel reqs with
          | none => .wait (.channel (peersOf os) 6) s0
          | some s => .done s

/-- Write elements into the own pool in ascending order (R289). -/
def plainWrite (t : Tile) (els : List (Nat × List Byte)) : OwnWrite :=
  .ok (els.foldl (fun t e => t.poolWrite e.1 e.2) t)

end Sys2Proof.Machine
end

