-- ==== Sys2Proof/Machine/Memory.lean ====
section
/-! DEFINITION. Page 3: instructions on memory (R277 to R301). -/

namespace Sys2Proof.Machine

/-! ### Landing of bytes -/

/-- The byte that arrived at a place of a result. -/
def gotAt (got : List (Nat × Byte)) (i : Nat) : Option Byte := (got.find? (fun e => e.1 == i)).map (fun e => e.2)
/-- `n` bytes of a result as a number; a byte that has not arrived is zero (R233). -/
def gotNat (got : List (Nat × Byte)) (i n : Nat) : Nat := leNat ((List.range n).map (fun k => (gotAt got (i + k)).getD 0))
/-- A scalar load's register value (R284, R292). -/
def scalarWord (n : Nat) (sign : Bool) (x : Nat) : Word :=
  if sign then BitVec.ofInt 64 (sInt (8 * n) x) else BitVec.ofNat 64 (x % 2 ^ (8 * n))
/-- A vector register with the bytes that arrived (R280). -/
def vecGot (old : Vec) (got : List (Nat × Byte)) : Vec :=
  vecMk 8 (fun i => match gotAt got i with | some b => b.toNat | none => vecEl 8 old i)

/-- The 64-bit words in which a byte was got. -/
def gotWords (got : List (Nat × Byte)) (i : Nat) : Bool := got.any (fun e => e.1 / 8 == i)

/-! ### Accesses -/

def readAcc (n : Nat) : Access := { size := n, align := n, rd := true, wr := false, lock := some false, spaces := 0xF }
def writeAcc (n : Nat) : Access := { size := n, align := n, rd := false, wr := true, lock := some true, spaces := 0xF }
def atomAcc (n : Nat) : Access := { size := n, align := n, rd := true, wr := true, lock := some true, spaces := 0xF }

/-! ### Scalar loads and stores (R284, R285) -/

/-- A scalar load of `n` bytes. -/
def scalarLoad (n : Nat) (sign : Bool) (u : VUnit) (s : State) : Host.Outcome State Fault Refusal :=
  issue u (u.a :: regsM u) [] (fun s =>
    s.load u (readAcc n) n [(0, s.addrM u)] [u.a] [] (.scalar u.a n sign)
      (fun s got => .done (s.setG u.a (scalarWord n sign (gotNat got 0 n))))) s

/-- A scalar store of `n` bytes. -/
def scalarStore (n : Nat) (u : VUnit) (s : State) : Host.Outcome State Fault Refusal :=
  issue u (u.a :: regsM u) [] (fun s =>
    s.store u (writeAcc n) [(s.addrM u, leBytes n (s.g u.a).toNat)] plainWrite MemOp.write) s

/-- LDB (R284). -/
def execLdb (u : VUnit) (s : State) : Host.Outcome State Fault Refusal := scalarLoad 1 true u s
/-- LDH (R284). -/
def execLdh (u : VUnit) (s : State) : Host.Outcome State Fault Refusal := scalarLoad 2 true u s
/-- LDW (R284). -/
def execLdw (u : VUnit) (s : State) : Host.Outcome State Fault Refusal := scalarLoad 4 true u s
/-- LDD (R284). -/
def execLdd (u : VUnit) (s : State) : Host.Outcome State Fault Refusal := scalarLoad 8 true u s
/-- LDBU (R284). -/
def execLdbu (u : VUnit) (s : State) : Host.Outcome State Fault Refusal := scalarLoad 1 false u s
/-- LDHU (R284). -/
def execLdhu (u : VUnit) (s : State) : Host.Outcome State Fault Refusal := scalarLoad 2 false u s
/-- LDWU (R284). -/
def execLdwu (u : VUnit) (s : State) : Host.Outcome State Fault Refusal := scalarLoad 4 false u s
/-- STB (R285). -/
def execStb (u : VUnit) (s : State) : Host.Outcome State Fault Refusal := scalarStore 1 u s
/-- STH (R285). -/
def execSth (u : VUnit) (s : State) : Host.Outcome State Fault Refusal := scalarStore 2 u s
/-- STW (R285). -/
def execStw (u : VUnit) (s : State) : Host.Outcome State Fault Refusal := scalarStore 4 u s
/-- STD (R285). -/
def execStd (u : VUnit) (s : State) : Host.Outcome State Fault Refusal := scalarStore 8 u s

/-! ### Vector loads and stores (R286 to R290) -/

/-- The enabled elements of `z` bytes of a vector unit. -/
def State.enEls (s : State) (u : VUnit) (z : Nat) : List Nat :=
  (List.range (128 / z)).filter (fun e => s.lane u (e * z / 4))

/-- A vector load of elements of `z` bytes, with the address of each element. -/
def vectorLoad (z : Nat) (addr : State → Nat → Word) (gs vs : VUnit → List RegNo) (u : VUnit) (s : State) :
    Host.Outcome State Fault Refusal :=
  issueLanes u (gs u) (u.a :: vs u) (fun s =>
    s.load u (readAcc z) z ((s.enEls u z).map (fun e => (z * e, addr s e))) [] [u.a] (.vec u.a)
      (fun s got => .done (s.setVOn u.a (gotWords got) (vecGot (s.v u.a) got)))) s

/-- A vector store of elements of `z` bytes, in ascending element order. -/
def vectorStore (z : Nat) (addr : State → Nat → Word) (gs vs : VUnit → List RegNo) (u : VUnit) (s : State) :
    Host.Outcome State Fault Refusal :=
  issueLanes u (gs u) (u.a :: vs u) (fun s =>
    s.store u (writeAcc z) ((s.enEls u z).map (fun e => (addr s e, leBytes z (vecEl (8 * z) (s.v u.a) e)))) plainWrite MemOp.write) s

/-- Lane addresses of VLD and VST (R286). -/
def addrLanes (u : VUnit) (s : State) (e : Nat) : Word := s.addrM u + BitVec.ofNat 64 (4 * e)
/-- Element size code of R287: 4, 2 or 1 bytes. -/
def elSize (u : VUnit) : Nat := match u.xbits 1 0 with | 0 => 4 | 1 => 2 | _ => 1
/-- Addresses of VLDS and VSTS (R287). -/
def addrStrided (u : VUnit) (s : State) (e : Nat) : Word :=
  let n := 2 ^ u.xbits 4 2
  s.g u.b + BitVec.ofInt 64 ((e % n : Nat) * sInt 32 (fld (s.g u.c) 31 0) + (e / n : Nat) * sInt 32 (fld (s.g u.c) 63 32))
/-- Addresses of VLDX and VSTX (R288): the index is signed for 4 bytes, unsigned below. -/
def addrIndexed (u : VUnit) (s : State) (e : Nat) : Word :=
  let z := elSize u
  let i := vecEl (8 * z) (s.v u.c) e
  s.g u.b + BitVec.ofInt 64 ((if z = 4 then sInt 32 i else (i : Int)) * z)

/-- VLD (R286). -/
def execVld (u : VUnit) (s : State) : Host.Outcome State Fault Refusal := vectorLoad 4 (addrLanes u) regsM (fun _ => []) u s
/-- VST (R286). -/
def execVst (u : VUnit) (s : State) : Host.Outcome State Fault Refusal := vectorStore 4 (addrLanes u) regsM (fun _ => []) u s
/-- VLDS (R287). -/
def execVlds (u : VUnit) (s : State) : Host.Outcome State Fault Refusal := vectorLoad (elSize u) (addrStrided u) (fun u => [u.b, u.c]) (fun _ => []) u s
/-- VSTS (R287). -/
def execVsts (u : VUnit) (s : State) : Host.Outcome State Fault Refusal := vectorStore (elSize u) (addrStrided u) (fun u => [u.b, u.c]) (fun _ => []) u s
/-- VLDX (R288). -/
def execVldx (u : VUnit) (s : State) : Host.Outcome State Fault Refusal := vectorLoad (elSize u) (addrIndexed u) (fun u => [u.b]) (fun u => [u.c]) u s
/-- VSTX (R288). -/
def execVstx (u : VUnit) (s : State) : Host.Outcome State Fault Refusal := vectorStore (elSize u) (addrIndexed u) (fun u => [u.b]) (fun u => [u.c]) u s

/-! ### Atomics and reductions (R291 to R294) -/

/-- The new word of an atomic, on `w`-bit words (R292); `none`: a comparison that fails makes no write. -/
def atomNew (op : AtomOp) (w old x y : Nat) : Option Nat :=
  match op with
  | .add => some ((old + x) % 2 ^ w)
  | .min => some (if sInt w x < sInt w old then x else old)
  | .max => some (if sInt w old < sInt w x then x else old)
  | .and => some (old &&& x)
  | .or => some (old ||| x)
  | .xor => some (old ^^^ x)
  | .swap => some x
  | .cas => if old = x then some y else none
  | .fadd => some (add32 0 old x)

/-- The new word of a reduction (R294). -/
def redNew (op : RedOp) (w m x : Nat) : Nat :=
  match op with
  | .add => (m + x) % 2 ^ w
  | .fadd => add32 0 m x
  | .max => if sInt w m < sInt w x then x else m

/-- Width in bits: K chooses 32 (R291). -/
def atomWidth (u : VUnit) : Nat := if u.k then 32 else 64

/-- Add a value-returning atomic's request to another owner (R293): a journal entry, an outstanding result, one
request. -/
def State.farAtomic (s : State) (u : VUnit) (op : AtomOp) (a : Word) (o : Owner) (pa : Nat) (hits : List Nat) (x y : Word) : Act :=
  s.loadLimit .dev fun s0 =>
  let rel := s0.relScope u
  let n := atomWidth u / 8
  let (id, s) := (s0.touch hits).newId
  match s.journal s.cur s.me.blk.hold 1 (some id) with
  | none => .stall
  | some (j, s) =>
    let out : Outs := { id := id, gs := [u.a], vs := [], how := .scalar u.a n (op != .fadd), kind := .dev, need := 1, got := [], acq := if isAcq u then some (s.widened u.scope) else none, dropped := [] }
    match (s.addOut out).released.request s.cur s.me.blk.hold o (.atomic op u.k pa x y) (some j) (some id) a rel with
    | none => .wait (.channel [ownerCode o] 6) s0
    | some s => .done s

/-- An atomic (R291 to R293). -/
def atomic (op : AtomOp) (u : VUnit) (s : State) : Host.Outcome State Fault Refusal :=
  issue u (u.a :: (if op = .cas then [u.a + 1] else []) ++ regsM u) [] (fun s =>
    s.held 0 fun s =>
    let w := atomWidth u
    let a := s.addrM u
    let x := s.g u.a
    let y := if op = .cas then s.g (u.a + 1) else 0
    match s.find (atomAcc (w / 8)) a with
    | .bad c => .trap c a
    | .miss => s.missWait 0 1 a
    | .absent => .absent
    | .at (.own off) _ =>
      s.relWait (s.relScope u) fun s =>
      let old := Mem.nat s.me.pool off (w / 8)
      let s := s.released
      let s := match atomNew op w old (x.toNat % 2 ^ w) (y.toNat % 2 ^ w) with
        | some v => s.modMe fun t => t.poolWrite off (leBytes (w / 8) v)
        | none => s
      .done (s.setG u.a (scalarWord (w / 8) (op != .fadd) old))
    | .at (.far o pa _) h => s.farAtomic u op a o pa h.toList x y) s

/-- A reduction (R294): device memory only, posted; in ordered mode every reduction is a violation (R301). -/
def reduction (op : RedOp) (u : VUnit) (s : State) : Host.Outcome State Fault Refusal :=
  issue u (u.a :: regsM u) [] (fun s =>
    let x := s.g u.a
    if s.me.blk.lr.ord then .trap causeOrdered (s.addrM u) else
    s.store u { writeAcc (atomWidth u / 8) with spaces := 0x4 } [(s.addrM u, x)] (fun t _ => .ok t)
      (fun l => match l with
        | (pa, x) :: _ => .reduce op u.k pa x
        | [] => .write [])) s

/-- AADD (R292). -/
def execAadd (u : VUnit) (s : State) : Host.Outcome State Fault Refusal := atomic .add u s
/-- AMIN (R292). -/
def execAmin (u : VUnit) (s : State) : Host.Outcome State Fault Refusal := atomic .min u s
/-- AMAX (R292). -/
def execAmax (u : VUnit) (s : State) : Host.Outcome State Fault Refusal := atomic .max u s
/-- AAND (R292). -/
def execAand (u : VUnit) (s : State) : Host.Outcome State Fault Refusal := atomic .and u s
/-- AOR (R292). -/
def execAor (u : VUnit) (s : State) : Host.Outcome State Fault Refusal := atomic .or u s
/-- AXOR (R292). -/
def execAxor (u : VUnit) (s : State) : Host.Outcome State Fault Refusal := atomic .xor u s
/-- ASWAP (R292). -/
def execAswap (u : VUnit) (s : State) : Host.Outcome State Fault Refusal := atomic .swap u s
/-- ACAS (R292). -/
def execAcas (u : VUnit) (s : State) : Host.Outcome State Fault Refusal := atomic .cas u s
/-- AFADD (R292). -/
def execAfadd (u : VUnit) (s : State) : Host.Outcome State Fault Refusal := atomic .fadd u s
/-- REDADD (R294). -/
def execRedadd (u : VUnit) (s : State) : Host.Outcome State Fault Refusal := reduction .add u s
/-- REDFADD (R294). -/
def execRedfadd (u : VUnit) (s : State) : Host.Outcome State Fault Refusal := reduction .fadd u s
/-- REDMAX (R294). -/
def execRedmax (u : VUnit) (s : State) : Host.Outcome State Fault Refusal := reduction .max u s

/-! ### Fences and drains (R259, R295, R296) -/

/-- The records that a core has popped become complete (R343): the endpoint of each, slice Q mod 24, sends its pusher a
completion notice, once the writes that the core has made are applied (R266). -/
def State.completePopped (s : State) (core : Nat) : State :=
  let done := s.rim.grad.flatMap (fun e => (e.2.popped.filter (fun p => p.1 == core)).map (fun p => (e.1, p)))
  let s := { s with rim := { s.rim with grad := s.rim.grad.map (fun e => (e.1, { e.2 with popped := e.2.popped.filter (fun p => p.1 != core) })) } }
  done.foldl (fun s e => s.emit (.slice (e.1 % 24)) (.pool e.2.2.1) 6 0
    (.optDone e.2.2.2.1 e.2.2.2.2 (core, s.nextId)) 0 0 none) s

/-- FENCE (R259, R295): kind 1 acq, 2 rel, 3 ar. -/
def execFence (u : VUnit) (s : State) : Host.Outcome State Fault Refusal :=
  issue u [] [] (fun s =>
    let sc := s.widened u.scope
    let fin := fun (s : State) => Act.done (if isRel u && 6 ≤ sc then s.completePopped s.cur else s)
    if u.ord = 2 then fin (s.modCx fun c => { c with relNext := some (max sc (c.relNext.getD 0)) })
    else if u.ord = 0 then .done s
    else if s.waitOver s.cur s.me.blk.hold (.fence u.ord sc) then fin s
    else .wait (.fence u.ord sc) s) s
/-- JDRAIN (R259, R296): the tile's journal, every context's entries. -/
def execJdrain (u : VUnit) (s : State) : Host.Outcome State Fault Refusal :=
  issue u [] [] (fun s => if s.me.blk.ni.journal.isEmpty then .done s else .wait .jdrain s) s
/-- OFENCE (R266, R296): no incomplete optimiser command, then FENCE.acq at scope 6. -/
def execOfence (u : VUnit) (s : State) : Host.Outcome State Fault Refusal :=
  issue u [] [] (fun s =>
    if s.cx.ocnt ≠ 0 then .wait .ofence s
    else if s.waitOver s.cur s.me.blk.hold (.fence 1 6) then .done s
    else .wait (.fence 1 6) s) s

/-! ### The monitor and prefetch (R297 to R299) -/

/-- MONA (R297): arms the monitor on the line of an own-pool address; checked against XB and the partition areas. -/
def execMona (u : VUnit) (s : State) : Host.Outcome State Fault Refusal :=
  issue u (regsM u) [] (fun s =>
    let a := s.addrM u
    match s.find { size := 1, align := 1, rd := false, wr := false, lock := none, spaces := 0x1 } a with
    | .bad c => .trap c a
    | .at (.own off) _ => .done (s.modCx fun c => { c with mln := BitVec.ofNat 14 (off / 128), marm := true, mchg := false })
    | _ => .trap causeKind a) s
/-- MONW (R298): returns at once where the monitor is not armed or the line has changed; else the write wakes it. -/
def execMonw (u : VUnit) (s : State) : Host.Outcome State Fault Refusal :=
  issue u [] [] (fun s =>
    if !s.cx.marm || s.cx.mchg then .done (s.modCx fun c => { c with marm := false })
    else .hold (.monw u.len) s) s
/-- PREF (R299): a miss of the load/store TLB goes to the TSC; nothing else changes and nothing traps. Where the tile has 4 misses queued there
already (R316), the miss is dropped (R299 says only that it does not wait: DESIGN CHOICE, entry 68). -/
def execPref (u : VUnit) (s : State) : Host.Outcome State Fault Refusal :=
  issue u (regsM u) [] (fun s =>
    let a := s.addrM u
    match s.find { size := 1, align := 1, rd := false, wr := false, lock := none, spaces := 0xC } a with
    | .miss => .done (s.missOf s.cur s.me.blk.hold 0 2 a).2
    | _ => .done s) s

end Sys2Proof.Machine
end

