-- ==== Sys2Proof/Machine/Matrix.lean ====
section
/-! DEFINITION. Page 2: accumulators and the cluster array (R203 to R223, R123, R141, R142), and the lease arbiter. -/

namespace Sys2Proof.Machine

/-! ### Accumulators (R137, R141) -/

def ArrayPart.acc (a : ArrayPart) (k : Nat) : AccSt := a.accs.toList.getD k { vld := false, drt := false, ifl := false, own := 0 }
def ArrayPart.setAcc (a : ArrayPart) (k : Nat) (f : AccSt → AccSt) : ArrayPart := { a with accs := a.accs.set! k (f (a.acc k)) }

/-- Pool offset of an accumulator, and its element (i, j) at place n = 512i + j. -/
def Tile.accAddr (t : Tile) (k : Nat) : Nat := t.abase + 65536 * k
def Tile.accEl (t : Tile) (k n : Nat) : Nat := Mem.nat t.pool (t.accAddr k + 4 * n) 4
/-- Write every element of an accumulator: its lines are not tracked one by one (R143). -/
def Tile.accWrite (t : Tile) (k : Nat) (f : Nat → Nat) : Tile :=
  { t with pool := Mem.write t.pool (t.accAddr k) ((List.range 16384).flatMap (fun n => leBytes 4 (f n))), par := parWritten t.par (t.accAddr k) 65536 }

/-- Status bytes of the eight accumulators as one word; bytes at or above NACC read zero (R222). -/
def Tile.accStatus (t : Tile) : Word :=
  BitVec.ofNat 64 (leNat ((List.range 8).map (fun k =>
    let a := t.blk.arr.acc k
    if k < t.nacc then BitVec.ofNat 8 (a.vld.toNat * 128 + a.drt.toNat * 64 + a.ifl.toNat * 32 + a.own.toNat) else 0)))

/-- R142 for one accumulator: the trap of an instruction that names it without owning it. -/
def State.accCheck (s : State) (k : Nat) : Option (Cause × Word) :=
  let a := s.me.blk.arr.acc k
  if a.vld && a.own.toNat == s.me.blk.hold % 8 then none else some (causeAccOwner, BitVec.ofNat 64 k)

/-! ### The lease arbiter (R205, R206, R214) -/

/-- The arbiter treats a position as requesting while REQ is set or its queue holds a command not started. -/
def ArrayPart.requesting (a : ArrayPart) : Bool := a.req || a.queue.any (fun e => !e.started)

/-- A loaded slot becomes stale. -/
def WSlot.stale (w : WSlot) : WSlot := if w.st = 1 then { w with st := 2, img := [] } else w

/-- Both slots of a tile become stale (R206, R227). -/
def Tile.staleSlots (t : Tile) : Tile := t.modArr fun a => { a with slots := a.slots.map WSlot.stale }
/-- Both slots of a tile become empty and their locks are released (R209). -/
def Tile.emptySlots (t : Tile) : Tile :=
  ((t.modArr fun a => { a with slots := Vector.replicate 2 WSlot.empty }).unlock 32).unlock 33

/-- The lease goes to a position: the slots of every other position become stale (R206). -/
def State.grant (s : State) (k pos : Nat) : State :=
  let s := s.modCluster k fun c => { c with holder := some pos, started := 0 }
  ((List.range 16).filter (fun q => q != pos && (s.tile (tileAt k q)).blk.arr.slots.toList.any (fun w => w.st == 1))).foldl
    (fun s q => s.modTile (tileAt k q) Tile.staleSlots) s

/-- The lease of a cluster ends: the next requesting position after the holder, wrapping from 15 to 0, is granted; the
holder itself comes last (R205). -/
def State.nextLease (s : State) (k : Nat) : State :=
  let from_ := ((s.cluster k).holder).getD 15
  let s := s.modCluster k fun c => { c with holder := none, started := 0 }
  match ((List.range 16).map (fun i => (from_ + 1 + i) % 16)).find? (fun q => (s.tile (tileAt k q)).blk.arr.requesting) with
  | none => s
  | some q => s.grant k q

/-- Does a core hold its cluster's lease? -/
def State.holds (s : State) (core : Nat) : Bool :=
  isTile core && (s.cluster (clusterOf core)).holder == some (posOf core)

/-- An idle request whose queue is empty: the lease ends and both slots become empty (R214). -/
def State.settleLease (s : State) (core : Nat) : State :=
  let a := (s.tile core).blk.arr
  if a.req || !a.queue.isEmpty then s
  else
    let s := s.modTile core Tile.emptySlots
    if s.holds core then s.nextLease (clusterOf core) else s

/-- LEASE (R214). -/
def execLease (u : VUnit) (s : State) : Host.Outcome State Fault Refusal :=
  issue u [u.a] [] (fun s =>
    let s := s.modMe fun t => t.modArr fun a => { a with req := true }
    let s := if isTile s.cur && (s.cluster (clusterOf s.cur)).holder.isNone then s.grant (clusterOf s.cur) (posOf s.cur) else s
    .done (s.setG u.a (boolWord (s.holds s.cur)))) s
/-- UNLEASE (R214). -/
def execUnlease (u : VUnit) (s : State) : Host.Outcome State Fault Refusal :=
  issue u [] [] (fun s =>
    if s.me.blk.arr.req then .done ((s.modMe fun t => t.modArr fun a => { a with req := false }).settleLease s.cur) else .done s) s

/-! ### Acceptance of commands (R204, R208, R213, R221) -/

/-- Destination accumulator of a command (R141). -/
def ACmd.dest : ACmd → Option Nat
  | .mma d _ _ _ _ => some d
  | .mzero d => some d
  | .macc d _ => some d
  | .mscl d _ => some d
  | _ => none

/-- Accumulators that a command names. -/
def ACmd.names : ACmd → List Nat
  | .mma d _ _ _ _ => [d]
  | .mzero d => [d]
  | .macc d s => [d, s]
  | .mscl d _ => [d]
  | _ => []

/-- Does a command wait for the exchange that the tile's rendezvous entry names (R221)? -/
def ArrayPart.behindExchange (a : ArrayPart) (c : ACmd) : Bool :=
  match a.mx with
  | none => false
  | some (d, s, _) => c.names.any (fun k => k == d || k == s)

/-- Accept a command: its sequence number, IFL and DRT of its destination, its lock if it takes one (R204, R208,
R141). `lock` is the pool range it reads. -/
def State.accept (s : State) (c : ACmd) (lock : Option (Nat × Nat)) : State :=
  let a := s.me.blk.arr
  let seq := a.sqa + 1
  let li := match lock with | none => none | some _ => s.me.freeLock
  let e : ACmdEntry := { seq := seq, ctx := s.me.blk.hold, tsn := s.cx.tsn, cmd := c, lock := li, started := false, held := [], wt := WSlot.empty, count := s.me.blk.ct.ucnt }
  s.modMe fun t =>
    let t := match lock with | none => t | some (o, n) => t.lock false (16 + seq.toNat % 16) o n
    (t.modArr fun a =>
      let a := { a with sqa := seq, queue := a.queue ++ [e] }
      match c.dest with | none => a | some d => a.setAcc d fun x => { x with ifl := true, drt := true }).tally 0x0B t.blk.hold 1

/-- Issue a command: a request registered, then the command's own checks, then a place in the queue (R204, R205). -/
def State.command (s : State) (c : ACmd) (check : Option (Cause × Word)) (lock : Option (Nat × Nat)) (f : State → State) : Act :=
  let a := s.me.blk.arr
  if !a.req then .trap causeLease s.cx.pc
  else match check with
  | some (k, t) => .trap k t
  | none =>
    if 16 ≤ a.queue.length || a.behindExchange c then .stall
    else if lock.isSome && s.me.freeLock.isNone then .stall
    else .done (f (s.accept c lock))

/-- Number of an accumulator and of a weight slot in fa (R211). -/
def accOf (r : RegNo) : Nat := r.toNat % 8
def slotOf (r : RegNo) : Nat := r.toNat / 8 % 2

/-- MFMT (R207, R215). -/
def execMfmt (u : VUnit) (s : State) : Host.Outcome State Fault Refusal :=
  issue u [u.b] [] (fun s =>
    let x := s.g u.b
    let af := fld x 4 4 == 1
    let wf := BitVec.ofNat 3 (fld x 2 0)
    s.command (.mfmt af wf) (if fld x 63 5 ≠ 0 ∨ fld x 3 3 ≠ 0 ∨ 5 ≤ fld x 2 0 then some (causeIllegal, s.cx.pc) else none) none
      (fun s => s.modMe fun t => t.modArr fun a => { a with afNext := af, wfNext := wf })) s

/-! ### Operand images (R118, R119, R212) -/

/-- Sizes of a plane operand image and of an activation operand image. -/
def planeSize (f : Nat) : Nat := 16384 * planesOf f + 512
def actSize (l16 : Bool) : Nat := (if l16 then 16384 else 8192) + 512

/-- The checks of R212 on an image: the trap, or the own-pool offset. -/
def State.image (s : State) (write : Bool) (a : Word) (size : Nat) : (Cause × Word) ⊕ Nat :=
  if s.offPool a then .inl (causeKind, a)
  else if a.toNat % 128 ≠ 0 then .inl (causeArray, a)
  else match s.classify a 1 with
  | none => .inl (causeBounds, a)
  | some _ => match s.me.imageCheck write (fld a 20 0) size with
    | some (c, o) => .inl (c, a + BitVec.ofNat 64 (o - fld a 20 0))
    | none => .inr (fld a 20 0)

/-- Base plus offset of an image operand (R211). -/
def State.imageAddr (s : State) (u : VUnit) : Word := s.g u.b + u.io

/-- MLDW (R216): the slot's earlier lock is released when the new one is taken. -/
def execMldw (u : VUnit) (s : State) : Host.Outcome State Fault Refusal :=
  issue u [u.b] [] (fun s =>
    s.held 0 fun s =>
    let w := u.a.toNat % 2
    let f := s.me.blk.arr.wfNext
    let size := planeSize f.toNat
    match s.image false (s.imageAddr u) size with
    | .inl (c, a) => s.command (.mldw (w == 1) 0 f) (some (c, a)) none id
    | .inr off =>
      let s1 := s.modMe fun t => t.unlock (32 + w)
      if s.me.blk.arr.req && s1.me.freeLock.isNone then .stall
      else s.command (.mldw (w == 1) off f) none none (fun s => s.modMe fun t => (t.unlock (32 + w)).lock false (32 + w) off size)) s

/-- Does an MMA of a slot find it empty, counting the MLDWs accepted before it (R213)? -/
def ArrayPart.slotEmpty (a : ArrayPart) (w : Nat) : Bool :=
  (a.slots.toList.getD w WSlot.empty).st == 0 &&
    a.queue.all (fun e => match e.cmd with | .mldw k _ _ => k.toNat != w | _ => true)

/-- MMA and MMAS (R217). -/
def matrix (keep : Bool) (u : VUnit) (s : State) : Host.Outcome State Fault Refusal :=
  issue u [u.b] [] (fun s =>
    s.held 0 fun s =>
    let d := accOf u.a
    let w := slotOf u.a
    let l16 := s.me.blk.arr.afNext
    match s.accCheck d with
    | some e => s.command (.mma d 0 (w == 1) l16 keep) (some e) none id
    | none =>
      if s.me.blk.arr.slotEmpty w then s.command (.mma d 0 (w == 1) l16 keep) (some (causeArray, 0)) none id
      else match s.image false (s.imageAddr u) (actSize l16) with
      | .inl e => s.command (.mma d 0 (w == 1) l16 keep) (some e) none id
      | .inr off => s.command (.mma d off (w == 1) l16 keep) none (some (off, actSize l16)) id) s

/-- MMA (R217). -/
def execMma (u : VUnit) (s : State) : Host.Outcome State Fault Refusal := matrix true u s
/-- MMAS (R217). -/
def execMmas (u : VUnit) (s : State) : Host.Outcome State Fault Refusal := matrix false u s

/-- MZERO (R218, R142): it takes the accumulator over once its IFL is clear. -/
def execMzero (u : VUnit) (s : State) : Host.Outcome State Fault Refusal :=
  issue u [] [] (fun s =>
    let d := accOf u.a
    if s.me.blk.arr.req && (s.me.blk.arr.acc d).ifl then .stall
    else s.command (.mzero d) none none (fun s =>
      s.modMe fun t => t.modArr fun a => a.setAcc d fun x => { x with vld := true, drt := true, own := BitVec.ofNat 3 t.blk.hold })) s
/-- MACC (R218). -/
def execMacc (u : VUnit) (s : State) : Host.Outcome State Fault Refusal :=
  issue u [] [] (fun s =>
    let d := accOf u.a
    let k := accOf u.b
    s.command (.macc d k) ((s.accCheck d).or (s.accCheck k)) none id) s
/-- MSCL (R218): the factor is read at issue. -/
def execMscl (u : VUnit) (s : State) : Host.Outcome State Fault Refusal :=
  issue u [u.b] [] (fun s =>
    let d := accOf u.a
    s.command (.mscl d ((s.g u.b).setWidth 32)) (s.accCheck d) none id) s

/-! ### In the tile (R220 to R223) -/

/-- MROW (R220). -/
def execMrow (u : VUnit) (s : State) : Host.Outcome State Fault Refusal :=
  issue u [u.c] [u.a] (fun s =>
    let k := accOf u.b
    match s.accCheck k with
    | some (c, a) => .trap c a
    | none =>
      if (s.me.blk.arr.acc k).ifl then .stall
      else
        let x := s.g u.c
        let i := fld x 4 0
        let el := fun (j : Nat) => s.me.accEl k (512 * i + j)
        .done (s.setV u.a (if u.ety = 0 then vecMk 32 (fun n => el (32 * fld x 8 5 + n))
          else vecMk 16 (fun n => convert 0 1 0 (el (64 * fld x 7 5 + n)))))) s

/-- Bytes of an image of MSTA and MLDA. -/
def accSize (u : VUnit) : Nat := if u.ety = 0 then 65536 else 32768

/-- MSTA (R220): it waits for the accumulator, then issues; the image is written as a VST of its bytes would write it. -/
def execMsta (u : VUnit) (s : State) : Host.Outcome State Fault Refusal :=
  issue u [u.b] [] (fun s =>
    s.held 0 fun s =>
    let d := accOf u.a
    match s.accCheck d with
    | some (c, a) => .trap c a
    | none =>
      if (s.me.blk.arr.acc d).ifl then .stall
      else match s.image true (s.imageAddr u) (accSize u) with
      | .inl (c, a) => .trap c a
      | .inr off => s.relWait s.cx.relNext fun s =>
          .done ((s.released).modMe fun t => t.poolWrite off ((List.range 16384).flatMap (fun n =>
            if u.ety = 0 then leBytes 4 (t.accEl d n) else leBytes 2 (convert 0 1 0 (t.accEl d n)))))) s

/-- MLDA (R220): it takes the accumulator over once its IFL is clear. -/
def execMlda (u : VUnit) (s : State) : Host.Outcome State Fault Refusal :=
  issue u [u.b] [] (fun s =>
    s.held 0 fun s =>
    let d := accOf u.a
    if (s.me.blk.arr.acc d).ifl then .stall
    else match s.image false (s.imageAddr u) (accSize u) with
    | .inl (c, a) => .trap c a
    | .inr off => .done (s.modMe fun t =>
        (t.accWrite d (fun n => if u.ety = 0 then Mem.nat t.pool (off + 4 * n) 4 else convert 1 0 0 (Mem.nat t.pool (off + 2 * n) 2))).modArr
          fun a => a.setAcc d fun x => { x with vld := true, drt := true, own := BitVec.ofNat 3 t.blk.hold })) s

/-- MXCH (R221): a rendezvous entry; a second one waits for the first. -/
def execMxch (u : VUnit) (s : State) : Host.Outcome State Fault Refusal :=
  issue u [] [] (fun s =>
    let d := accOf u.a
    let k := accOf u.b
    if !s.me.blk.lr.pres.getLsbD 3 then .trap causeArray 0
    else match (s.accCheck d).or (s.accCheck k) with
    | some (c, a) => .trap c a
    | none =>
      if s.me.blk.arr.mx.isSome then .stall
      else .done (s.modMe fun t => t.modArr fun a => { a with mx := some (d, k, u.xbits 1 0), mxBy := (s.me.blk.hold, s.cx.tsn) })) s

/-- The word of MQRY with n = 1 (R222). -/
def State.queryWord (s : State) : Word :=
  let a := s.me.blk.arr
  BitVec.ofNat 64 (a.sqa.toNat * 2 ^ 24 + a.sqd.toNat * 2 ^ 16 + a.queue.length % 32 * 2 ^ 8 + a.mx.isSome.toNat * 4 +
    a.req.toNat * 2 + (s.holds s.cur).toNat)

/-- MQRY (R222): a reading that the arrival log records (R438). -/
def execMqry (u : VUnit) (s : State) : Host.Outcome State Fault Refusal :=
  issue u [u.a] [] (fun s =>
    let (v, s) := s.reading (if u.b = 0 then s.me.accStatus else s.queryWord)
    .done (s.setG u.a v)) s
/-- MWT (R223): an interlock until no accumulator of the mask is in flight, or, with mask 0, until the queue is
empty. R142's owner trap is for units that name accumulators, and whether MWT's mask does is open: the model applies none (DESIGN CHOICE,
entry 67). -/
def execMwt (u : VUnit) (s : State) : Host.Outcome State Fault Refusal :=
  issue u [u.a] [] (fun s =>
    let m := u.ik.toNat % 256
    let a := s.me.blk.arr
    if (if m = 0 then !a.queue.isEmpty else (List.range 8).any (fun k => m.testBit k && (a.acc k).ifl)) then .stall
    else .done (s.setG u.a s.me.accStatus)) s

/-! ### What the array computes (R123, R217, R218) -/

/-- Integer and exponent of an activation image (R119). -/
def actInt (l16 : Bool) (a : Array Byte) (i k : Nat) : Int :=
  let n := 256 * i + k
  if l16 then sInt 16 ((a.getD (2 * n) 0).toNat + 256 * (a.getD (2 * n + 1) 0).toNat) else sInt 8 (a.getD n 0).toNat
def actExp (l16 : Bool) (a : Array Byte) (i g : Nat) : Nat := (a.getD ((if l16 then 16384 else 8192) + 16 * i + g) 0).toNat

/-- Plane bit, integer and exponent of a plane operand image (R116 to R118). -/
def imageBit (w : Array Byte) (b k j : Nat) : Bool := (w.getD (16384 * b + 64 * k + j / 8) 0).getLsbD (j % 8)
def planeInt (f : Nat) (w : Array Byte) (k j : Nat) : Int :=
  if f = 0 then (if imageBit w 0 k j then (if imageBit w 1 k j then -1 else 1) else 0)
  else sInt (planesOf f) ((List.range (planesOf f)).foldl (fun n b => n + (imageBit w b k j).toNat * 2 ^ b) 0)
def planeExp (f : Nat) (w : Array Byte) (g nb : Nat) : Nat := (w.getD (16384 * planesOf f + 32 * g + nb) 0).toNat

/-- One group of Mma.Form: `none` for a NaN group; else the scaled dot product rounded once (R123). -/
def mmaGroup (l16 : Bool) (f : Nat) (a w : Array Byte) (i j g : Nat) : Option Nat :=
  let ea := actExp l16 a i g
  let ew := planeExp f w g (j / 16)
  if ea = 128 ∨ ew = 128 then none
  else
    let d := (List.range 16).foldl (fun d k => d + actInt l16 a i (16 * g + k) * planeInt f w (16 * g + k) j) 0
    some (f32.round 0 (.fin (d < 0) d.natAbs (sInt 8 ea + sInt 8 ew)))

/-- t of Mma.Form: `none` where a NaN group contributes (R123). -/
def mmaSum (l16 : Bool) (f : Nat) (a w : Array Byte) (i j : Nat) : Option Nat :=
  let s := (List.range 16).map (mmaGroup l16 f a w i j)
  if s.any (fun x => x.isNone) then none else some (treeSum (add32 0) 0 4 (s.filterMap id))

/-- One element after an MMA or MMAS (R217). -/
def mmaEl (keep : Bool) (old : Nat) : Option Nat → Nat
  | none => 0x7FC00000
  | some t => if keep then add32 0 old t else t

/-- The slot of a command, reloaded from the pool if stale (R209). -/
def Tile.slotNow (t : Tile) (w : WSlot) : WSlot :=
  if w.st = 2 then { w with st := 1, img := Mem.bytes t.pool w.off.toNat (planeSize w.fmt.toNat) } else w

/-- A command starts (R209, R216, R217, R219): MFMT takes effect, MLDW reads its image, MMA takes its operands and
its activation lock clears. -/
def Tile.startCmd (t : Tile) (e : ACmdEntry) : ACmdEntry × Tile :=
  match e.cmd with
  | .mfmt af wf => ({ e with started := true }, t.modArr fun a => { a with af := af, wf := wf })
  | .mldw w off f =>
    let slot : WSlot := { st := 1, fmt := f, off := BitVec.ofNat 21 off, img := Mem.bytes t.pool off (planeSize f.toNat) }
    ({ e with started := true }, t.modArr fun a => { a with slots := a.slots.set! w.toNat slot })
  | .mma _ off w l16 _ =>
    let slot := t.slotNow (t.blk.arr.slots.toList.getD w.toNat WSlot.empty)
    ({ e with started := true, held := Mem.bytes t.pool off (actSize l16), wt := slot, lock := none },
      (t.unlock (16 + e.seq.toNat % 16)).modArr fun a => { a with slots := a.slots.set! w.toNat slot })
  | _ => ({ e with started := true }, t)

/-- The last result of a command is written (R217, R218). -/
def Tile.writeCmd (t : Tile) (e : ACmdEntry) : Tile :=
  match e.cmd with
  | .mma d _ _ l16 keep =>
    let a := e.held.toArray
    let w := e.wt.img.toArray
    t.accWrite d (fun n => mmaEl keep (t.accEl d n) (mmaSum l16 e.wt.fmt.toNat a w (n / 512) (n % 512)))
  | .mzero d => t.accWrite d (fun _ => 0)
  | .macc d s => t.accWrite d (fun n => add32 0 (t.accEl d n) (t.accEl s n))
  | .mscl d f => t.accWrite d (fun n => mul32 (t.accEl d n) f.toNat)
  | _ => t

/-- Accumulators that a running exchange writes at a position (R221). -/
def Cluster.exchanging (c : Cluster) (pos : Nat) : List Nat :=
  match c.running with
  | none => []
  | some (_, l) => (l.filter (fun e => e.1 == pos)).map (fun e => e.2.1)

/-- IFL of a destination clears unless another command or an exchange has it in flight (R141). -/
def State.clearIfl (s : State) (core d : Nat) : State :=
  let busy := (s.tile core).blk.arr.queue.any (fun e => e.cmd.dest == some d) || (((s.cluster (homeCluster core)).exchanging (posOf core)).contains d)
  s.modTile core fun t => t.modArr fun a => a.setAcc d fun x => { x with ifl := busy }

end Sys2Proof.Machine
end

