-- ==== Sys2Proof/Machine/Vector.lean ====
section
/-! DEFINITION. Page 1: vector, predicate and stream instructions (R176 to R202). -/

namespace Sys2Proof.Machine

/-! ### Shared forms -/

/-- Write the elements of `w` bits of a register that a test names; where it names none, nothing is written (R176). -/
def State.putEls (s : State) (r : RegNo) (w : Nat) (en : Nat → Bool) (f : Nat → Nat) : State :=
  if (List.range (1024 / w)).any en then s.setVOn r (wordsOf w en) (vecUpd w (s.v r) en f) else s

/-- Write the enabled elements of the unit's type into v(a) (R176). -/
def State.setEls (s : State) (u : VUnit) (f : Nat → Nat) : State :=
  let w := widthOf u.ety
  s.putEls u.a w (fun i => s.elem u w i) f

/-- An element-wise unit with operands x and y of the A2 form (R183); `f` takes the type, the mode and the elements. -/
def vec2 (f : Nat → Nat → Nat → Nat → Nat) (u : VUnit) (s : State) : Host.Outcome State Fault Refusal :=
  issueLanes u [] (regs2 u) (fun s =>
    let w := widthOf u.ety
    let x := s.vx2 u
    let y := s.vy2 u
    .done (s.setEls u (fun i => f u.ety u.rnd (vecEl w x i) (vecEl w y i)))) s

/-- A unary element-wise unit (A1). -/
def vec1 (f : Nat → Nat → Nat → Nat) (u : VUnit) (s : State) : Host.Outcome State Fault Refusal :=
  issueLanes u [] [u.a, u.b] (fun s =>
    let w := widthOf u.ety
    let x := s.v u.b
    .done (s.setEls u (fun i => f u.ety u.rnd (vecEl w x i)))) s

/-! ### Elements (R183 to R186) -/

/-- An arithmetic element result: rounded for a float type, wrapped or clamped for an integer type (R183). -/
def elArith (fl : Nat → FVal → FVal → FVal) (il : Int → Int → Int) (t mode x y : Nat) : Nat :=
  if t < 3 then (fmtOf t).round mode (fl mode ((fmtOf t).val x) ((fmtOf t).val y))
  else elOfInt t mode (il (elInt t x) (elInt t y))

def elAdd := elArith FVal.add (fun x y => x + y)
def elSub := elArith (fun m x y => FVal.add m x y.negate) (fun x y => x - y)
def elMul := elArith (fun _ x y => FVal.mul x y) (fun x y => x * y)
/-- Minimum and maximum (R183): exact, a NaN gives the canonical NaN, −0 < +0. -/
def elMin (t _mode x y : Nat) : Nat :=
  if t < 3 then fmin (fmtOf t) x y else if elInt t y < elInt t x then y else x
def elMax (t _mode x y : Nat) : Nat :=
  if t < 3 then fmax (fmtOf t) x y else if elInt t x < elInt t y then y else x
/-- VABS and VNEG (R185). -/
def elAbs (t mode x : Nat) : Nat :=
  if t < 3 then
    let f := fmtOf t
    if (f.val x).isNan then f.nan else x % 2 ^ (f.eb + f.mb)
  else elOfInt t mode (elInt t x).natAbs
def elNeg (t mode x : Nat) : Nat :=
  if t < 3 then
    let f := fmtOf t
    if (f.val x).isNan then f.nan else x ^^^ 2 ^ (f.eb + f.mb)
  else elOfInt t mode (-(elInt t x))
/-- VFMA and VFMS (R184): a ± b × c rounded once. -/
def elFma (sub : Bool) (t mode a b c : Nat) : Nat :=
  let f := fmtOf t
  let y := f.val b
  f.round mode (FVal.fma mode (f.val a) (if sub then y.negate else y) (f.val c))
/-- Shifts by n mod w (R186). -/
def elShl (t x n : Nat) : Nat := x * 2 ^ (n % widthOf t)
def elShr (t x n : Nat) : Nat := x / 2 ^ (n % widthOf t)
def elSar (t x n : Nat) : Nat := wrapInt (widthOf t) (Int.fdiv (sInt (widthOf t) x) (2 ^ (n % widthOf t)))

/-! ### Moves, broadcasts and single elements (R181, R182) -/

/-- VMOV, copy form (R181). -/
def execVmov (u : VUnit) (s : State) : Host.Outcome State Fault Refusal := vec1 (fun _ _ x => x) u s
/-- VBCAST of a register (R182). -/
def execVbcast (u : VUnit) (s : State) : Host.Outcome State Fault Refusal :=
  issueLanes u [u.b] [u.a] (fun s => let x := (s.g u.b).toNat; .done (s.setEls u (fun _ => x))) s
/-- An immediate as an element (R182): low bits for integer types, rounded by rne for float types. -/
def immEl (t : Nat) (z : Int) : Nat := if t < 3 then (fmtOf t).round 0 (intVal z) else wrapInt (widthOf t) z
/-- VBCAST of an immediate (R182). -/
def execVbcastImm (u : VUnit) (s : State) : Host.Outcome State Fault Refusal :=
  issueLanes u [] [u.a] (fun s => .done (s.setEls u (fun _ => immEl u.ety u.ik.toInt))) s
/-- An element as a general register value (R182): sign-extended for I types, zero-extended otherwise. -/
def elWord (t x : Nat) : Word := if isSignedTy t then BitVec.ofInt 64 (sInt (widthOf t) x) else BitVec.ofNat 64 x
/-- VEXTR (R182). -/
def execVextr (u : VUnit) (s : State) : Host.Outcome State Fault Refusal :=
  issueLanes u [u.a, u.c] [u.b] (fun s =>
    let w := widthOf u.ety
    let i := (s.g u.c).toNat % (1024 / w)
    .done (if s.elem u w i then s.setG u.a (elWord u.ety (vecEl w (s.v u.b) i)) else s)) s
/-- VINS (R182). -/
def execVins (u : VUnit) (s : State) : Host.Outcome State Fault Refusal :=
  issueLanes u [u.b, u.c] [u.a] (fun s =>
    let w := widthOf u.ety
    let i := (s.g u.c).toNat % (1024 / w)
    let x := (s.g u.b).toNat
    .done (s.putEls u.a w (fun k => k == i && s.elem u w k) (fun _ => x))) s
/-- VIOTA from 0 (R182). -/
def execViota (u : VUnit) (s : State) : Host.Outcome State Fault Refusal :=
  issueLanes u [] [u.a] (fun s => .done (s.setEls u (fun i => immEl u.ety i))) s
/-- VIOTA from an immediate (R182). -/
def execViotaImm (u : VUnit) (s : State) : Host.Outcome State Fault Refusal :=
  issueLanes u [] [u.a] (fun s => .done (s.setEls u (fun i => immEl u.ety (u.ik.toInt + i)))) s

/-! ### Element arithmetic (R183 to R189) -/

/-- VADD (R183). -/
def execVadd (u : VUnit) (s : State) : Host.Outcome State Fault Refusal := vec2 elAdd u s
/-- VSUB (R183). -/
def execVsub (u : VUnit) (s : State) : Host.Outcome State Fault Refusal := vec2 elSub u s
/-- VMUL (R183). -/
def execVmul (u : VUnit) (s : State) : Host.Outcome State Fault Refusal := vec2 elMul u s
/-- VMIN (R183). -/
def execVmin (u : VUnit) (s : State) : Host.Outcome State Fault Refusal := vec2 elMin u s
/-- VMAX (R183). -/
def execVmax (u : VUnit) (s : State) : Host.Outcome State Fault Refusal := vec2 elMax u s
/-- VAND (R183). -/
def execVand (u : VUnit) (s : State) : Host.Outcome State Fault Refusal := vec2 (fun _ _ x y => x &&& y) u s
/-- VOR (R183). -/
def execVor (u : VUnit) (s : State) : Host.Outcome State Fault Refusal := vec2 (fun _ _ x y => x ||| y) u s
/-- VXOR (R183). -/
def execVxor (u : VUnit) (s : State) : Host.Outcome State Fault Refusal := vec2 (fun _ _ x y => x ^^^ y) u s
/-- VFMA (R184). -/
def execVfma (u : VUnit) (s : State) : Host.Outcome State Fault Refusal :=
  issueLanes u [] [u.a, u.b, u.c] (fun s =>
    let w := widthOf u.ety
    let a := s.v u.a
    let b := s.v u.b
    let c := s.v u.c
    .done (s.setEls u (fun i => elFma false u.ety u.rnd (vecEl w a i) (vecEl w b i) (vecEl w c i)))) s
/-- VFMS (R184). -/
def execVfms (u : VUnit) (s : State) : Host.Outcome State Fault Refusal :=
  issueLanes u [] [u.a, u.b, u.c] (fun s =>
    let w := widthOf u.ety
    let a := s.v u.a
    let b := s.v u.b
    let c := s.v u.c
    .done (s.setEls u (fun i => elFma true u.ety u.rnd (vecEl w a i) (vecEl w b i) (vecEl w c i)))) s
/-- VABS (R185). -/
def execVabs (u : VUnit) (s : State) : Host.Outcome State Fault Refusal := vec1 elAbs u s
/-- VNEG (R185). -/
def execVneg (u : VUnit) (s : State) : Host.Outcome State Fault Refusal := vec1 elNeg u s
/-- VRCP (R187). -/
def execVrcp (u : VUnit) (s : State) : Host.Outcome State Fault Refusal := vec1 (fun _ _ x => rcp32 x) u s
/-- VRSQ (R188). -/
def execVrsq (u : VUnit) (s : State) : Host.Outcome State Fault Refusal := vec1 (fun _ _ x => rsq32 x) u s
/-- VEXP2 (R189). -/
def execVexp2 (u : VUnit) (s : State) : Host.Outcome State Fault Refusal := vec1 (fun _ _ x => exp2 x) u s
/-- VSHL by the elements of y (R186). -/
def execVshl (u : VUnit) (s : State) : Host.Outcome State Fault Refusal := vec2 (fun t _ x y => elShl t x y) u s
/-- VSHL by an immediate (R186). -/
def execVshlImm (u : VUnit) (s : State) : Host.Outcome State Fault Refusal :=
  issueLanes u [] (regs2i u) (fun s =>
    let w := widthOf u.ety
    let x := s.vx2i u
    .done (s.setEls u (fun i => elShl u.ety (vecEl w x i) u.ik.toNat))) s
/-- VSHR by the elements of y (R186). -/
def execVshr (u : VUnit) (s : State) : Host.Outcome State Fault Refusal := vec2 (fun t _ x y => elShr t x y) u s
/-- VSHR by an immediate (R186). -/
def execVshrImm (u : VUnit) (s : State) : Host.Outcome State Fault Refusal :=
  issueLanes u [] (regs2i u) (fun s =>
    let w := widthOf u.ety
    let x := s.vx2i u
    .done (s.setEls u (fun i => elShr u.ety (vecEl w x i) u.ik.toNat))) s
/-- VSAR by the elements of y (R186). -/
def execVsar (u : VUnit) (s : State) : Host.Outcome State Fault Refusal := vec2 (fun t _ x y => elSar t x y) u s
/-- VSAR by an immediate (R186). -/
def execVsarImm (u : VUnit) (s : State) : Host.Outcome State Fault Refusal :=
  issueLanes u [] (regs2i u) (fun s =>
    let w := widthOf u.ety
    let x := s.vx2i u
    .done (s.setEls u (fun i => elSar u.ety (vecEl w x i) u.ik.toNat))) s

/-! ### Compares, conversion, selection and permutes (R190 to R193) -/

/-- A vector compare (R190): bit j tells whether the relation holds for every element of lane j. -/
def vcmp (rel : Nat) (u : VUnit) (s : State) : Host.Outcome State Fault Refusal :=
  issueLanes u [] [u.b, u.c] (fun s =>
    let w := widthOf u.ety
    let x := s.v u.b
    let y := s.v u.c
    let n := 32 / w
    let new := packEls 1 ((List.range 32).map (fun j =>
      ((List.range n).all (fun k => elRel u.ety rel (vecEl w x (j * n + k)) (vecEl w y (j * n + k)))).toNat))
    .done (s.setP u.a (predUpd (s.p u.a) (s.mask u) (BitVec.ofNat 32 new)))) s

/-- VCMPEQ (R190). -/
def execVcmpeq (u : VUnit) (s : State) : Host.Outcome State Fault Refusal := vcmp 0 u s
/-- VCMPLT (R190). -/
def execVcmplt (u : VUnit) (s : State) : Host.Outcome State Fault Refusal := vcmp 1 u s
/-- VCMPLE (R190). -/
def execVcmple (u : VUnit) (s : State) : Host.Outcome State Fault Refusal := vcmp 2 u s
/-- VCVT (R191): the destination type is the unit's, the source type XI[2:0], the part XI[4:3]. -/
def execVcvt (u : VUnit) (s : State) : Host.Outcome State Fault Refusal :=
  issueLanes u [] [u.a, u.b] (fun s =>
    let src := u.xbits 2 0
    let part := u.xbits 4 3
    let wd := widthOf u.ety
    let ws := widthOf src
    let nd := 1024 / wd
    let ns := 1024 / ws
    let x := s.v u.b
    let conv := fun k => convert src u.ety u.rnd (vecEl ws x k)
    .done (s.putEls u.a wd (fun i => s.elem u wd i && (ws ≤ wd || (part * ns ≤ i && i < part * ns + ns)))
      (fun i => if wd = ws then conv i else if wd < ws then conv (i - part * ns) else conv (i + part * nd)))) s
/-- VSEL (R192): every element is written. -/
def execVsel (u : VUnit) (s : State) : Host.Outcome State Fault Refusal :=
  issueLanes u [] [u.a, u.b, u.c] (fun s =>
    let x := s.v u.b
    let y := s.v u.c
    .done (s.setV u.a (vecMk 32 (fun j => if s.lane u j then vecEl 32 x j else vecEl 32 y j)))) s
/-- VPERM (R193): the low log2 N bits of the index element. -/
def execVperm (u : VUnit) (s : State) : Host.Outcome State Fault Refusal :=
  issueLanes u [] [u.a, u.b, u.c] (fun s =>
    let w := widthOf u.ety
    let x := s.v u.b
    let y := s.v u.c
    .done (s.setEls u (fun i => vecEl w x (vecEl w y i % (1024 / w))))) s
/-- VROT (R193). -/
def execVrot (u : VUnit) (s : State) : Host.Outcome State Fault Refusal :=
  issueLanes u [] (u.a :: regs2i u) (fun s =>
    let w := widthOf u.ety
    let x := s.vx2i u
    let n := u.ik.toNat % (1024 / w)
    .done (s.setEls u (fun i => vecEl w x ((i + n) % (1024 / w))))) s

/-! ### Reductions (R194) -/

/-- The elements of v(b), disabled ones replaced by an identity. -/
def State.redEls (s : State) (u : VUnit) (id : Nat) : List Nat :=
  let w := widthOf u.ety
  let x := s.v u.b
  (List.range (1024 / w)).map (fun i => if s.elem u w i then vecEl w x i else id)

/-- A reduction unit: `f` takes the type, the mode and the elements, `id` the identity of a type. -/
def reduce (id : Nat → Nat) (f : Nat → Nat → List Nat → Word) (u : VUnit) (s : State) : Host.Outcome State Fault Refusal :=
  issueLanes u [u.a] [u.b] (fun s => .done (s.setG u.a (f u.ety u.rnd (s.redEls u (id u.ety))))) s

/-- Widening to f32, exact (R194). -/
def toF32 (t n : Nat) : Nat := convert t 0 0 n

/-- Levels of the tree over the elements of a type. -/
def treeDepth (t : Nat) : Nat := match widthOf t with | 32 => 5 | 16 => 6 | _ => 7

def redSum (t mode : Nat) (l : List Nat) : Word :=
  if t < 3 then BitVec.ofNat 64 (treeSum (add32 mode) 0 (treeDepth t) (l.map (toF32 t)))
  else BitVec.ofInt 64 ((l.map (elInt t)).foldl (fun a b => a + b) 0)
/-- The greatest or least element; a NaN among the enabled ones gives the canonical NaN. -/
def redPick (pick : Nat → Nat → Nat → Nat → Nat) (t _mode : Nat) (l : List Nat) : Word :=
  elWord t (l.foldl (fun a b => pick t 0 a b) (l.headD 0))
/-- The greatest absolute value (R194). -/
def redAmax (t _mode : Nat) (l : List Nat) : Word :=
  if t < 3 then BitVec.ofNat 64 (l.foldl (fun a b => fmax (fmtOf t) a (elAbs t 0 b)) 0)
  else BitVec.ofNat 64 ((l.map (fun n => (elInt t n).natAbs)).foldl max 0)

/-- Identity of the maximum and of the minimum of a type (R194). -/
def maxId (t : Nat) : Nat := if t < 3 then (fmtOf t).sign true + (fmtOf t).inf else wrapInt (widthOf t) (tyMin t)
def minId (t : Nat) : Nat := if t < 3 then (fmtOf t).inf else wrapInt (widthOf t) (tyMax t)

/-- VREDSUM (R194). -/
def execVredsum (u : VUnit) (s : State) : Host.Outcome State Fault Refusal := reduce (fun _ => 0) redSum u s
/-- VREDMAX (R194). -/
def execVredmax (u : VUnit) (s : State) : Host.Outcome State Fault Refusal := reduce maxId (redPick elMax) u s
/-- VREDMIN (R194). -/
def execVredmin (u : VUnit) (s : State) : Host.Outcome State Fault Refusal := reduce minId (redPick elMin) u s
/-- VREDAMAX (R194). -/
def execVredamax (u : VUnit) (s : State) : Host.Outcome State Fault Refusal := reduce (fun _ => 0) redAmax u s

/-! ### Block conversions (R195 to R197) -/

/-- VPACKB (R195). -/
def execVpackb (u : VUnit) (s : State) : Host.Outcome State Fault Refusal :=
  issueLanes u [u.c] [u.a, u.b] (fun s =>
    let n := widthOf u.ety
    let part := u.xbits 1 0
    let x := (List.range 32).map (fun i => vecEl 32 (s.v u.b) i)
    let k0 := blockPack n (x.take 16)
    let k1 := blockPack n (x.drop 16)
    let q := k0.q ++ k1.q
    let s' := s.putEls u.a n (fun i => 32 * part ≤ i && i < 32 * part + 32) (fun i => wrapInt n (q.getD (i - 32 * part) 0))
    .done (s'.setG u.c (BitVec.ofNat 64 (k1.e * 256 + k0.e)))) s
/-- VUNPKB (R196). -/
def execVunpkb (u : VUnit) (s : State) : Host.Outcome State Fault Refusal :=
  issueLanes u [u.c] [u.a, u.b] (fun s =>
    let n := if u.xbits 2 2 = 0 then 8 else 16
    let part := u.xbits 1 0
    let x := s.v u.b
    let e := s.g u.c
    let w := widthOf u.ety
    .done (s.putEls u.a w (fun k => k < 32 && s.elem u w k)
      (fun k => blockValue (fmtOf u.ety) (sInt n (vecEl n x (32 * part + k))) (if k < 16 then fld e 7 0 else fld e 15 8)))) s
/-- Bit of a plane of a packed integer: its two's complement code, or for P2 the planes z and s (R116, R117). -/
def planeBit (fmt b : Nat) (q : Int) : Nat :=
  if planesOf fmt ≤ b then 0
  else if fmt = 0 then (if b = 0 then (q != 0).toNat else (decide (q < 0)).toNat)
  else wrapInt 16 q / 2 ^ b % 2
/-- The eight registers that VPLANE reads. -/
def blockRegs (u : VUnit) : List RegNo := (List.range 8).map (fun h => u.b + BitVec.ofNat 6 h)
/-- VPLANE (R197). -/
def execVplane (u : VUnit) (s : State) : Host.Outcome State Fault Refusal :=
  issueLanes u [u.c] (u.a :: blockRegs u) (fun s =>
    let fmt := u.xbits 2 0
    let part := u.xbits 4 3
    let x := (blockRegs u).flatMap (fun r => let v := s.v r; (List.range 32).map (fun i => vecEl 32 v i))
    let k := if fmt = 0 then blockTernary x s.cx.tth.toNat else blockPack (planesOf fmt) x
    let s' := s.setV u.a (vecMk 16 (fun h =>
      packEls 1 ((List.range 16).map (fun j => planeBit fmt (4 * part + h / 16) (k.q.getD (16 * (h % 16) + j) 0)))))
    .done (s'.setG u.c (BitVec.ofNat 64 k.e))) s

/-! ### Predicates (R198) -/

/-- A predicate unit with operands x and y of the A2 form. -/
def pred2 (f : BitVec 32 → BitVec 32 → BitVec 32) (u : VUnit) (s : State) : Host.Outcome State Fault Refusal :=
  issueLanes u [] [] (fun s => .done (s.setP u.a (predUpd (s.p u.a) (s.mask u) (f (s.px2 u) (s.py2 u))))) s
/-- PAND (R198). -/
def execPand (u : VUnit) (s : State) : Host.Outcome State Fault Refusal := pred2 (fun x y => x &&& y) u s
/-- POR (R198). -/
def execPor (u : VUnit) (s : State) : Host.Outcome State Fault Refusal := pred2 (fun x y => x ||| y) u s
/-- PXOR (R198). -/
def execPxor (u : VUnit) (s : State) : Host.Outcome State Fault Refusal := pred2 (fun x y => x ^^^ y) u s
/-- PNOT (R198). -/
def execPnot (u : VUnit) (s : State) : Host.Outcome State Fault Refusal :=
  issueLanes u [] [] (fun s => .done (s.setP u.a (predUpd (s.p u.a) (s.mask u) (~~~ (s.p u.b))))) s
/-- PSET from a register (R198). -/
def execPset (u : VUnit) (s : State) : Host.Outcome State Fault Refusal :=
  issueLanes u [u.b] [] (fun s => .done (s.setP u.a (predUpd (s.p u.a) (s.mask u) ((s.g u.b).setWidth 32)))) s
/-- PSET from an immediate (R198). -/
def execPsetImm (u : VUnit) (s : State) : Host.Outcome State Fault Refusal :=
  issueLanes u [] [] (fun s => .done (s.setP u.a (predUpd (s.p u.a) (s.mask u) (u.ik.setWidth 32)))) s
/-- PGET (R198). -/
def execPget (u : VUnit) (s : State) : Host.Outcome State Fault Refusal :=
  issueLanes u [u.a] [] (fun s => .done (s.setG u.a ((s.p u.b &&& s.mask u).setWidth 64))) s
/-- PCNT (R198). -/
def execPcnt (u : VUnit) (s : State) : Host.Outcome State Fault Refusal :=
  issueLanes u [u.a] [] (fun s =>
    let m := s.p u.b &&& s.mask u
    .done (s.setG u.a (BitVec.ofNat 64 ((List.range 32).filter (fun i => m.getLsbD i)).length))) s
/-- PFIRST (R198). -/
def execPfirst (u : VUnit) (s : State) : Host.Outcome State Fault Refusal :=
  issueLanes u [u.a] [] (fun s =>
    let m := s.p u.b &&& s.mask u
    .done (s.setG u.a (BitVec.ofNat 64 (((List.range 32).find? (fun i => m.getLsbD i)).getD 32)))) s

/-! ### Streams (R140, R199 to R201) -/

def strKind (x : BitVec 128) : Nat := fld x 127 126
def strCls (x : BitVec 128) : Nat := fld x 125 123
def strEsz (x : BitVec 128) : Nat := fld x 122 120
def strCnt (x : BitVec 128) : Nat := fld x 95 64
def strStride (x : BitVec 128) : Int := sInt 32 (fld x 63 32)
def strPos (x : BitVec 128) : Nat := fld x 20 0
/-- Bytes of an element (R199). -/
def strSize (x : BitVec 128) : Nat := match strEsz x with | 0 => 4 | 1 => 2 | 2 => 1 | _ => 128

/-- The rules of a binding (R199). -/
def bindOk (x : BitVec 128) : Bool :=
  fld x 119 96 == 0 && fld x 31 21 == 0 &&
  (if strKind x = 3 then 2 ≤ strCls x && strCls x ≤ 5 && strEsz x == 3 && strPos x == 0 && strStride x == 0
   else if strKind x = 0 then false
   else
     let z := strSize x
     let last : Int := strPos x + strStride x * ((strCnt x : Int) - 1)
     strCls x == 0 && strEsz x ≤ 3 && strPos x % min z 4 == 0 && strStride x % (min z 4 : Nat) == 0 &&
       (strCnt x == 0 || (strPos x + z ≤ 2 ^ 21 && 0 ≤ last && last + z ≤ 2 ^ 21)))

/-- SBIND (R199): a breach is an illegal instruction and s(a) is unchanged. -/
def execSbind (u : VUnit) (s : State) : Host.Outcome State Fault Refusal :=
  issueLanes u [u.b, u.c] [] (fun s =>
    let x : BitVec 128 := s.g u.c ++ s.g u.b
    if bindOk x then .done (s.modCx fun c => c.ws (u.a.setWidth 3) x) else .trap causeIllegal s.cx.pc) s
/-- SREL (R201). -/
def execSrel (u : VUnit) (s : State) : Host.Outcome State Fault Refusal :=
  issueLanes u [u.a] [] (fun s =>
    let x := s.cx.rs (u.b.setWidth 3)
    let n := if strKind x = 0 then 0 else strCnt x
    .done ((s.modCx fun c => c.ws (u.b.setWidth 3) 0).setG u.a (BitVec.ofNat 64 n))) s

/-- A stream after `c` elements (R200, R201). -/
def strStep (x : BitVec 128) (c : Nat) : BitVec 128 :=
  setFld (setFld x 20 0 (wrapInt 21 (strPos x + strStride x * c))) 95 64 (strCnt x - c)

/-- SSKIP (R201). -/
def execSskip (u : VUnit) (s : State) : Host.Outcome State Fault Refusal :=
  issueLanes u [u.b] [] (fun s =>
    let x := s.cx.rs (u.a.setWidth 3)
    if strKind x = 1 ∨ strKind x = 2 then
      .done (s.modCx fun c => c.ws (u.a.setWidth 3) (strStep x (min (s.g u.b).toNat (strCnt x))))
    else .trap causeStream (BitVec.ofNat 64 (u.a.toNat))) s

/-- The first failing check of a stream access: each element's own-pool checks, in ascending order (R200). -/
def Tile.strCheck (t : Tile) (write : Bool) (z : Nat) : List Int → Option (Cause × Word)
  | [] => none
  | a :: r =>
    if a < 0 ∨ 2 ^ 21 < a + z then some (causeBounds, BitVec.ofInt 64 a)
    else if a.toNat % min z 4 ≠ 0 then some (causeAlign, BitVec.ofInt 64 a)
    else match t.ownCheck { size := z, align := 1, rd := !write, wr := write, lock := some write, spaces := 1 } a.toNat with
      | some c => some (c, BitVec.ofInt 64 a)
      | none => t.strCheck write z r

/-- Is a stream element of `z` bytes enabled: by the predicate bit of its first lane (R176, R200)? -/
def State.strEl (s : State) (u : VUnit) (z e : Nat) : Bool := s.lane u (e * z / 4)

/-- The tile without a message that is taken (R310). -/
def Tile.without (t : Tile) (h : Held) : Tile :=
  match h with
  | .queue i => t.modVol fun v => { v with rq := v.rq.eraseIdx i }
  | .slot c k => t.clearSlot c k

/-- Take the message that a RECV would take now: its header and payload, and the state without it (R310). -/
def State.takeMsg (s : State) (h : Held) : (Word × List Byte) × State :=
  (s.me.peek s.fresh s.me.vol.rq h, s.modMe (fun t => t.without h))

/-- The stream that a stream form of VMOV names. -/
def strReg (u : VUnit) : BitVec 3 := u.b.setWidth 3

/-- VMOV, stream read (R181, R200). -/
def execVmovStreamRead (u : VUnit) (s : State) : Host.Outcome State Fault Refusal :=
  issueLanes u [] [u.a] (fun s =>
    let x := s.cx.rs (strReg u)
    let z := strSize x
    let any := if strKind x = 3 then (List.range 32).any (fun j => s.lane u j) else (List.range (128 / z)).any (fun e => s.strEl u z e)
    if !any then .done s
    else if (strKind x ≠ 1 ∧ strKind x ≠ 3) ∨ strCnt x = 0 then .trap causeStream (BitVec.ofNat 64 (strReg u).toNat)
    else s.held 0 fun s =>
      if strKind x = 3 then
        match s.me.eligible s.me.blk.hold (strCls x) with
        | none => .wait (.message (strCls x)) s
        | some h =>
          let (m, s) := s.takeMsg h
          let v := vecOfBytes m.2
          .done ((s.putEls u.a 32 (fun j => s.lane u j) (fun j => vecEl 32 v j)).modCx
            fun c => c.ws (strReg u) (setFld x 95 64 (strCnt x - 1)))
      else
        let n := min (strCnt x) (128 / z)
        let addr := fun (e : Nat) => (strPos x : Int) + strStride x * e
        match s.me.strCheck false z (((List.range n).filter (fun e => s.strEl u z e)).map addr) with
        | some (c, a) => .trap c a
        | none =>
          let got := fun e => if e < n then Mem.nat s.me.pool (addr e).toNat z else 0
          .done ((s.putEls u.a (8 * z) (fun e => s.strEl u z e) got).modCx
            fun c => c.ws (strReg u) (strStep x n))) s

/-- VMOV, stream write (R181, R200). -/
def execVmovStreamWrite (u : VUnit) (s : State) : Host.Outcome State Fault Refusal :=
  issueLanes u [] [u.a] (fun s =>
    let x := s.cx.rs (strReg u)
    let z := strSize x
    if !((List.range (128 / z)).any (fun e => s.strEl u z e)) then .done s
    else if strKind x ≠ 2 ∨ strCnt x = 0 then .trap causeStream (BitVec.ofNat 64 (strReg u).toNat)
    else s.held 0 fun s =>
      let n := min (strCnt x) (128 / z)
      let addr := fun (e : Nat) => (strPos x : Int) + strStride x * e
      let els := (List.range n).filter (fun e => s.strEl u z e)
      match s.me.strCheck true z (els.map addr) with
      | some (c, a) => .trap c a
      | none =>
        s.relWait s.cx.relNext fun s =>
        let s := s.released
        let v := s.v u.a
        .done ((s.modMe fun t => els.foldl (fun t e => t.poolWrite (addr e).toNat (leBytes z (vecEl (8 * z) v e))) t).modCx
          fun c => c.ws (strReg u) (strStep x n))) s

end Sys2Proof.Machine
end

