-- ==== Sys2Proof/Machine/Queue.lean ====
section
/-! DEFINITION. Page 4: messages, tasks, the exchange, copies, gradient queues and Heron queries (R323 to R353). -/

namespace Sys2Proof.Machine

/-! ### Messages sent (R326 to R328, R332, R397) -/

/-- The destination tile that a word names as TID does; `none` where a bit outside [15:0] is set or the tile lies
outside the gang rectangle (R326). -/
def State.dest (s : State) (w : Word) : Option Nat :=
  let r := s.me.blk.lr
  let x := fld w 15 8
  let y := fld w 7 0
  if fld w 63 16 = 0 ∧ r.gxo ≤ x ∧ x < r.gxo + r.gw ∧ r.gyo ≤ y ∧ y < r.gyo + r.gh then some (tileNo x y) else none

/-- Add to the pending-byte counter of every domain of a mask (R397), which marks it changed (R398). -/
def SyncPart.addBytes (k : SyncPart) (mask : BitVec 16) (n : Int) : SyncPart :=
  { k with pch := k.pch ||| mask, pbc := Vector.ofFn fun i => if mask.getLsbD i.val then k.pbc.get i + BitVec.ofInt 40 n else k.pbc.get i }

/-- Send a numbered packet of classes 1 to 5 from the core in hand: it waits for injection and its copy stands in the
retransmission buffer (R328); its bytes count in the domains of which the tile is an active member (R397).
`none` where the channel table has no place (R370). -/
def State.sendPkt (s : State) (dst cls bytes : Nat) (rel : Option Nat) (body : Nat → Body) : Option State :=
  match s.number s.cur dst cls with
  | none => none
  | some (seq, s) =>
    let (id, s) := s.newId
    let mem := s.me.blk.sy.mem
    let p : Pkt := { id := id, src := .pool s.cur, dst := .pool dst, cls := cls, seq := seq, body := body seq, stage := .queued, pcn := 0, mask := mem, bytes := bytes, rel := rel }
    some ({ s with net := s.net ++ [p] }.modMe fun t =>
      ((t.modNi fun k => { k with rtx := k.rtx ++ [p] }).modSy fun k => k.addBytes mem bytes).tally 0x08 t.blk.hold 1)

/-- The retransmission buffer of the core in hand has no place (R328). Acknowledgements of messages are not logged (R493), so that in a replay a
sender waits where its log has the end of a wait that began at this count (R438). -/
def State.rtxFull (s : State) : Bool :=
  match s.me.vol.replay with
  | none => decide (32 ≤ s.me.blk.ni.rtx.length)
  | some rs => rs.any (fun r => r.kind == .rsu && r.aux == rsuRtx && r.ctx == s.me.blk.hold && r.seq == (s.me.blk.ct.ucnt.setWidth 40).toNat)
/-- The wait for a place there. -/
def State.rtxWait (s : State) : Wait := .rtx (s.me.blk.ct.ucnt.setWidth 40).toNat

/-- Send a message (R326, R327): the checks in their order, then the wait for a place in the retransmission
buffer. -/
def State.sendMsg (s : State) (w : Word) (cls tcx : Nat) (spawn : Bool) (payload : List Byte) (rel : Option Nat) : Act :=
  if s.me.blk.lr.ord then .trap causeOrdered w
  else match s.dest w with
  | none => .trap causeBounds w
  | some dst =>
    if s.rtxFull then .wait s.rtxWait s
    else
      let c := s.me.blk.hold
      let m : Nat → Body := fun seq => .msg { cls := cls, long := payload.length != 32, payload := payload, src := s.cur, tcx := tcx, spawn := spawn, anum := 0, seq := seq, ctx := c, tsn := s.cx.tsn }
      match s.sendPkt dst cls payload.length rel m with
      | none => .wait (.channel [dst] cls) s
      | some s => .done s.released

/-- Four consecutive general registers from r, and their bytes. -/
def quadRegs (r : RegNo) : List RegNo := [r, r + 1, r + 2, r + 3]
def State.quadBytes (s : State) (r : RegNo) : List Byte := (quadRegs r).flatMap (fun k => leBytes 8 (s.g k).toNat)

/-- Class of a unit's XI field (R323). -/
def msgClass (u : VUnit) : Nat := u.xbits 5 4 + 2

/-- SEND (R327). -/
def execSend (u : VUnit) (s : State) : Host.Outcome State Fault Refusal :=
  issue u (u.b :: quadRegs u.a) [] (fun s => s.sendMsg (s.g u.b) (msgClass u) (u.xbits 3 0) false (s.quadBytes u.a) (s.relScope u)) s
/-- SENDV (R327): every lane of v(a), whatever the predicate. -/
def execSendv (u : VUnit) (s : State) : Host.Outcome State Fault Refusal :=
  issue u [u.b] [u.a] (fun s => s.sendMsg (s.g u.b) (msgClass u) (u.xbits 3 0) false (vecBytes (s.v u.a)) (s.relScope u)) s
/-- SPAWN (R332): a release at gang scope (R262); the tile's spawn count rises (R401). -/
def execSpawn (u : VUnit) (s : State) : Host.Outcome State Fault Refusal :=
  issue u (u.b :: quadRegs u.a) [] (fun s =>
    match s.sendMsg (s.g u.b) 1 15 true (s.quadBytes u.a) (some (max 5 (s.cx.relNext.getD 0))) with
    | .done s => .done (s.modMe fun t => t.modNi fun k => { k with spc := k.spc + 1 })
    | a => a) s

/-! ### Messages taken (R329 to R331) -/

/-- Class that a RECV names. -/
def recvClass (u : VUnit) : Nat := u.xbits 1 0 + 2

/-- Register form of RECV and RECVV (R329): the message is taken at issue and its result is outstanding. -/
def recvRegs (gs vs : List RegNo) (how : Word → List Byte → List (RegNo × Word) × Option (RegNo × Vec × BitVec 128))
    (u : VUnit) (s : State) : Host.Outcome State Fault Refusal :=
  issue u (u.c :: gs) vs (fun s =>
    match s.me.eligible s.me.blk.hold (recvClass u) with
    | none => .wait (.message (recvClass u)) s
    | some h =>
      let (m, s) := s.takeMsg h
      let (id, s) := s.newId
      let (g, v) := how m.1 m.2
      let hdr := if u.c = 0 then [] else [(u.c, m.1)]
      .done (s.addOut { id := id, gs := gs ++ hdr.map (fun e => e.1), vs := vs, how := .fixed (g ++ hdr) v, kind := .recv, need := 0, got := [], acq := if isAcq u then some (s.widened u.scope) else none, dropped := [] })) s

/-- RECV, register form (R329). -/
def execRecv (u : VUnit) (s : State) : Host.Outcome State Fault Refusal :=
  recvRegs (quadRegs u.a) [] (fun _ p => ((List.range 4).map (fun i => (u.a + BitVec.ofNat 6 i, BitVec.ofNat 64 (leNat ((p.drop (8 * i)).take 8)))), none)) u s
/-- RECVV, register form (R329). -/
def execRecvv (u : VUnit) (s : State) : Host.Outcome State Fault Refusal :=
  recvRegs [] [u.a] (fun _ p => ([], some (u.a, vecOfBytes p, BitVec.allOnes 128))) u s

/-- Pool form of RECV and RECVV (R329): `size` bytes are checked and locked, at most `most` payload bytes written;
the header lands in g(c) and the lock clears then. -/
def recvToPool (size most : Nat) (u : VUnit) (s : State) : Host.Outcome State Fault Refusal :=
  issue u [u.b, u.c] [] (fun s =>
    s.held 0 fun s =>
    let a := s.g u.b
    match s.find { size := size, align := 32, rd := false, wr := true, lock := some true, spaces := 0x1, ord := false } a with
    | .bad c => .trap c a
    | .at (.own off) _ =>
      match s.me.eligible s.me.blk.hold (recvClass u) with
      | none => .wait (.message (recvClass u)) s
      | some h =>
        match s.me.freeLock with
        | none => .stall
        | some k =>
          s.relWait s.cx.relNext fun s =>
          let (m, s) := s.takeMsg h
          let (id, s) := ((s.modMe fun t => (t.lock true 38 off size).poolWrite off (leBytes 8 m.1.toNat ++ List.replicate 24 0 ++ m.2.take most)).released).newId
          .done (s.addOut { id := id, gs := [u.c], vs := [], how := .fixed [(u.c, m.1)] none, kind := .copy, need := 0, got := [], acq := if isAcq u then some (s.widened u.scope) else none, dropped := [], lock := some k })
    | _ => .trap causeKind a) s

/-- RECV, pool form (R329). -/
def execRecvPool (u : VUnit) (s : State) : Host.Outcome State Fault Refusal := recvToPool 64 32 u s
/-- RECVV, pool form (R329). -/
def execRecvvPool (u : VUnit) (s : State) : Host.Outcome State Fault Refusal := recvToPool 160 128 u s

/-- QLEN (R331). -/
def execQlen (u : VUnit) (s : State) : Host.Outcome State Fault Refusal :=
  issue u [u.a] [] (fun s =>
    let t := s.me
    let q := fun (c : Nat) => (t.vol.rq.filter (fun m => m.cls == c)).length % 256
    let dvf := (t.fullSlots.filter (fun e => e.1 == t.blk.hold)).length % 256
    let w := t.blk.ni.dov.toNat * 2 ^ 63 + dvf * 2 ^ 48 + t.vol.taskQ.length % 256 * 2 ^ 40 + t.vol.notices.length % 256 * 2 ^ 32 +
      q 5 * 2 ^ 24 + q 4 * 2 ^ 16 + q 3 * 2 ^ 8 + q 2
    let s := s.setG u.a (BitVec.ofNat 64 w)
    .done (if u.b = 1 then s.modMe fun t => t.modNi fun k => { k with dov := false } else s)) s

/-- The full divert slots that a DIVRD matches, with their ages (R330). -/
def Tile.divertMatches (t : Tile) (c cls : Nat) (all : Bool) : List (Nat × Held) :=
  t.fullSlots.filterMap (fun e =>
    let h := t.slotHdr e.1 e.2
    if (all || e.1 == c) && (cls == 0 || fld h 50 48 == cls) then some (t.age (h.setWidth 32), Held.slot e.1 e.2) else none)

/-- A range lock covers a byte of a divert slot. -/
def Tile.slotLocked (t : Tile) : Held → Bool
  | .queue _ => false
  | .slot c k => t.lockHit true (t.slotAddr c k) 160

/-- DIVRD (R330): its write lock on the slot it reads takes an entry for the length of the unit (R364), and waits while an engine
operation's lock covers the slot (R263). -/
def execDivrd (u : VUnit) (s : State) : Host.Outcome State Fault Refusal :=
  issue u [u.c] [u.a] (fun s =>
    match eldest (s.me.divertMatches s.me.blk.hold (u.xbits 2 0) (u.xbits 3 3 == 1)) with
    | none => .done (s.setG u.c 0)
    | some h =>
      if s.me.freeLock.isNone || s.me.slotLocked h then .stall
      else
        let (m, s) := s.takeMsg h
        .done ((s.setV u.a (vecOfBytes m.2)).setG u.c m.1)) s

/-! ### The exchange (R333, R334, R368) -/

/-- Slot n of the exchange slot schedule; 0 (VLD = 0) at or above the bound count. -/
def Tile.slotEntry (t : Tile) (n : Nat) : Word :=
  if n < t.blk.sy.xcnt then BitVec.ofNat 64 (Mem.nat t.pool (t.blk.sy.xtb + 8 * n) 8) else 0

/-- XSEND (R333): the start cycle fixes timing only. -/
def execXsend (u : VUnit) (s : State) : Host.Outcome State Fault Refusal :=
  issue u [] [u.a] (fun s =>
    let n := u.ik.toNat
    let slot := fun (reason : Nat) => Act.trap causeSlot (BitVec.ofNat 64 (reason * 2 ^ 56 + n % 1024))
    let t := s.me
    if !t.blk.lr.ord then slot 1
    else if !t.blk.sy.xph then slot 2
    else if n ≠ t.blk.sy.nxs then slot 3
    else
      let e := t.slotEntry n
      let r := t.blk.lr
      let x := fld e 35 28
      let y := fld e 27 20
      if !e.getLsbD 63 || e.getLsbD 62 || fld e 5 0 != 0 || !(decide (r.gxo ≤ x) && decide (x < r.gxo + r.gw) && decide (r.gyo ≤ y) && decide (y < r.gyo + r.gh)) then slot 4
      else if s.rtxFull then .wait s.rtxWait s
      else
        let bytes := vecBytes (s.v u.a)
        match s.sendPkt (tileNo x y) (fld e 61 60 + 2) 128 s.cx.relNext (fun _ => .xwrite (128 * fld e 19 6) bytes t.blk.hold s.cx.tsn) with
        | none => .wait (.channel [tileNo x y] (fld e 61 60 + 2)) s
        | some s => .done (s.released.modMe fun t => t.modSy fun k => { k with nxs := k.nxs + 1 })) s

/-! ### Copies (R335 to R340) -/

/-- Start address of each row of a side, modulo 2^64. -/
def rowStarts (base : Word) (step : Int) (rows : Nat) : List Word :=
  (List.range rows).map (fun (r : Nat) => base + BitVec.ofInt 64 (step * r))

/-- Does an address lie in the own pool? -/
def State.ownAddr (s : State) (a : Word) : Bool := !s.offPool a

/-- Does the copy-engine TLB show a Belvis window at an address (R241, R360)? -/
def State.inWindow (s : State) (a : Word) : Bool :=
  let (asid, gen) := s.asidGen s.cur
  fld a 63 62 == 3 && isTile s.cur &&
    match s.me.vol.tlbC.hit a asid gen with
    | some (_, _, w1) => entryBlv w1
    | none => false

/-- A side of a copy: its row starts and its stride. -/
structure Side where
  base : Word
  rows : List Word
  step : Int
  deriving DecidableEq, Repr

/-- The first of a list that fails a test. -/
def firstBad (l : List Word) (ok : Word → Bool) : Option Word := l.find? (fun a => !ok a)

/-- The own-pool offsets of a side's rows. -/
def State.ownRows (s : State) (d : Side) : List Nat := (d.rows.filter s.ownAddr).map (fun a => fld a 20 0)

/-- The hull of a side's own-pool rows: first offset and size; `none` where no row is in the own pool. -/
def hull (len : Nat) : List Nat → Option (Nat × Nat)
  | [] => none
  | o :: r => match hull len r with
    | none => some (o, len)
    | some (lo, n) => some (min o lo, max (o + len) (lo + n) - min o lo)

/-- Item 1 of R338. -/
def State.copyOrdered (s : State) (ovl : Bool) (d c : Side) : Option Word :=
  if !s.me.blk.lr.ord then none
  else match firstBad (d.base :: d.rows) s.ownAddr with
    | some a => some a
    | none =>
      if ovl then none
      else if s.me.blk.sy.xph then some d.base
      else firstBad (c.base :: c.rows) (fun a => !(fld a 63 62 == 1 && s.offPool a) && !s.inWindow a)

/-- Items 1 to 6 of R338 and the cases of R339, in order: the trap and its TRA. A rim core reaches no host memory (R406), with the fault that its
loads raise (entry 12). `lens` are the values of item 2 with
their own test; `mults` those of item 4. -/
def State.copyCheck (s : State) (ovl : Bool) (d c : Side) (len : Nat) (lens : List (Bool × Word)) (mults : List Word) :
    Option (Cause × Word) :=
  let t := s.me
  let bound := fun (a : Word) => (s.classify a len).isSome
  let own := fun (a : Word) => t.ownCheck { size := len, align := 1, rd := true, wr := true, lock := none, spaces := 0xF } (fld a 20 0)
  let part := fun (l : List Word) => (l.filter s.ownAddr).findSome? (fun a => (own a).map (fun k => (k, a)))
  match s.copyOrdered ovl d c with
  | some a => some (causeOrdered, a)
  | none =>
  match lens.find? (fun e => !e.1) with
  | some e => some (causeAlign, e.2)
  | none =>
  match firstBad d.rows bound, firstBad c.rows bound with
  | some a, _ => some (causeBounds, a)
  | none, some a => some (causeBounds, a)
  | none, none =>
  match firstBad mults (fun w => w.toNat % 128 == 0) with
  | some w => some (causeAlign, w)
  | none =>
  match firstBad (d.rows ++ c.rows) (fun a => !(decide (rimBase ≤ s.cur) && fld a 63 62 == 3)) with
  | some a => some (causeKind, a)
  | none =>
  if ovl then
    let xb := t.blk.lr.xb.toNat
    if !s.ownAddr d.base then some (causeKind, d.base)
    else if xb < fld d.base 20 0 + len then some (causeKind, if fld d.base 20 0 < xb then d.base + BitVec.ofNat 64 (xb - fld d.base 20 0) else d.base)
    else if (fld c.base 63 62 == 1 && s.offPool c.base) || s.inWindow c.base then some (causeKind, c.base)
    else if t.abase < fld d.base 20 0 + len then some (causePart, d.base)
    else part c.rows
  else if s.inWindow d.base && s.inWindow c.base then some (causeKind, d.base)
  else match part d.rows with
    | some e => some e
    | none => part c.rows

/-- A holder of a range lock came before an operation (R263): a copy or query by its identity, every other holder. -/
def Tile.before (t : Tile) (src id : Nat) : Bool :=
  if src < 16 then t.blk.en.copies.any (fun c => c.idx == src && c.id < id)
  else if 34 ≤ src && src < 38 then t.blk.en.queries.any (fun q => q.idx == src - 34 && q.id < id)
  else true

/-- An earlier engine operation overlaps one of an operation's own entries (R263); what a tile at rest has released does not (R268). -/
def Tile.engineBlocked (t : Tile) (mine id : Nat) : Bool :=
  let l := t.unbind.blk.en.locks.toList.filterMap (fun x => x)
  l.any (fun k => k.src.toNat == mine && l.any (fun o =>
    o.src.toNat != mine && (k.wl || o.wl) && o.covers k.first.toNat k.last.toNat && t.before o.src.toNat id))

/-- Post a copy that passed its checks: its locks, its place in the copy queue, its token (R263, R325). -/
def State.postCopy (s0 : State) (u : VUnit) (ovl : Bool) (d c : Side) (rows len : Nat) : Act :=
  let s := s0
  if 16 ≤ s.me.blk.en.copies.length then .wait .copyQueue s
  else match (List.range 16).find? (fun i => s.me.blk.en.copies.all (fun k => k.idx != i)) with
  | none => .wait .copyQueue s
  | some i =>
    let dh := hull len (s.ownRows d)
    let ch := hull len (s.ownRows c)
    if s.me.freeLocks < dh.toList.length + ch.toList.length then .stall
    else
      let s := s.modMe fun t =>
        let t := match dh with | some (o, n) => t.lock true i o n | none => t
        match ch with | some (o, n) => t.lock false i o n | none => t
      let (id, s) := s.newId
      let rel := s.relScope u
      let op : CopyOp := { idx := i, id := id, ctx := s.me.blk.hold, tsn := s.cx.tsn, tok := u.a, dst := d.base, src := c.base, rows := rows, len := len, dstep := d.step, sstep := c.step, scope := match rel with | some k => max k (s.widened u.scope) | none => s.widened u.scope, rel := rel.isSome, ovl := ovl, lines := 0, st := 0, slot := none, tag := none }
      let s := s.modMe fun t => t.modEn fun e => { e with copies := e.copies ++ [{ op with waits := t.engineBlocked i id }] }
      .done ((s.addOut { id := id, gs := [u.a], vs := [], how := .fixed [] none, kind := .copy, need := 1, got := [], acq := none, dropped := [] }).released)

/-- A copy's checks and its posting. Acquires at scope 6 or 7 alone hold one that names a Belvis window (R256). -/
def State.copy (s : State) (u : VUnit) (ovl : Bool) (d c : Side) (rows len : Nat) (lens : List (Bool × Word)) (mults : List Word) : Act :=
  s.held (if s.inWindow d.base || s.inWindow c.base then 6 else 0) fun s =>
  match s.copyCheck ovl d c len lens mults with
  | some (k, a) => .trap k a
  | none => s.postCopy u ovl d c rows len

/-- Is a length in the range of item 2 of R338? -/
def lenOk (n : Nat) : Bool := decide (128 ≤ n) && decide (n ≤ 0x80000000)

/-- CPY and OVL: one row of L bytes. -/
def copyOne (ovl : Bool) (u : VUnit) (s : State) : Host.Outcome State Fault Refusal :=
  issue u [u.a, u.b, u.c] [] (fun s =>
    let l := s.g u.a
    let d := s.g u.b
    let c := s.g u.c
    s.copy u ovl ⟨d, [d], 0⟩ ⟨c, [c], 0⟩ 1 l.toNat [(lenOk l.toNat, l)] [d, c, l]) s

/-- CPY (R335). -/
def execCpy (u : VUnit) (s : State) : Host.Outcome State Fault Refusal := copyOne false u s
/-- CPY2D (R336). -/
def execCpy2d (u : VUnit) (s : State) : Host.Outcome State Fault Refusal :=
  issue u [u.a, u.a + 1, u.b, u.c] [] (fun s =>
    let w := s.g u.a
    let rows := fld w 63 32
    let len := fld w 31 0
    let st := s.g (u.a + 1)
    let d := s.g u.b
    let c := s.g u.c
    let ds := sInt 32 (fld st 63 32)
    let ss := sInt 32 (fld st 31 0)
    let n := if rows < 65536 then rows else 0
    s.copy u false ⟨d, rowStarts d ds n, ds⟩ ⟨c, rowStarts c ss n, ss⟩ rows len
      [(lenOk len, BitVec.ofNat 64 len), (decide (1 ≤ rows) && decide (rows ≤ 65535), w)]
      [d, c, BitVec.ofNat 64 len, BitVec.ofInt 64 ds, BitVec.ofInt 64 ss]) s
/-- OVL (R339): CPY with the destination in code. -/
def execOvl (u : VUnit) (s : State) : Host.Outcome State Fault Refusal := copyOne true u s
/-- Outstanding results that write a register by a copy's or a query's token (R340). -/
def Ctx.tokens (c : Ctx) (r : RegNo) : List Outs :=
  c.outs.filter (fun o => r != 0 && o.gs.contains r && (o.kind == .heron || (o.kind == .copy && o.lock.isNone)))

/-- CPYQ (R340): g(b) is named and not read; its reading is logged (R438). -/
def execCpyq (u : VUnit) (s : State) : Host.Outcome State Fault Refusal :=
  issue u [u.a] [] (fun s =>
    let q := s.me.blk.en.copies
    let own := (q.filter (fun k => k.ctx == s.me.blk.hold)).length
    let (v, s) := s.reading (BitVec.ofNat 64 (own * 2 ^ 16 + q.length * 2 ^ 8 + (s.cx.tokens u.b).isEmpty.toNat))
    .done (s.setG u.a v)) s

/-! ### Gradient queues (R341 to R343) -/

/-- The window-table entry that a push uses: the one that holds Q, else the lowest-numbered one with count 0. -/
def windowEntry (w : Vector (BitVec 11 × BitVec 5) 8) (q : Nat) : Option Nat :=
  match (List.range 8).find? (fun i => let e := w.toList.getD i (0, 0); e.2 != 0 && e.1.toNat == q) with
  | some i => some i
  | none => (List.range 8).find? (fun i => (w.toList.getD i (0, 0)).2 == 0)

/-- GQPUSH (R341, R343). -/
def execGqpush (u : VUnit) (s : State) : Host.Outcome State Fault Refusal :=
  issue u [u.b] [u.a] (fun s =>
    let w := s.g u.b
    let q := fld w 10 0
    let wm := fld w 27 24 + 1
    if s.me.blk.lr.ord then .trap causeOrdered w
    else if fld w 63 28 ≠ 0 ∨ fld w 15 11 ≠ 0 then .trap causeBounds w
    else s.held 6 fun s0 =>
    match windowEntry s0.me.blk.ni.win q with
    | none => .wait (.window q wm) s0
    | some i =>
      let n := (s0.me.blk.ni.win.toList.getD i (0, 0)).2.toNat
      if wm ≤ n then .wait (.window q wm) s0
      else match s0.journal s0.cur s0.me.blk.hold 1 none with
        | none => .stall
        | some (j, s) =>
          match s.request s.cur s.me.blk.hold (.slice (q % 24)) (.push q (fld w 23 16) wm s.me.blk.lr.rank (s.v u.a)) (some j) none w (s.relScope u) with
          | none => .wait (.channel [ownerCode (.slice (q % 24))] 6) s0
          | some s =>
            .done ((s.modMe fun t => t.modNi fun k => { k with win := k.win.set! i (BitVec.ofNat 11 q, BitVec.ofNat 5 (n + 1)) }).modCx
              fun c => { c with ocnt := c.ocnt + 1 }).released) s

/-- GQPOP (R342, R343): the record popped before becomes complete; the answer lands in v(a) and g(c). -/
def execGqpop (u : VUnit) (s : State) : Host.Outcome State Fault Refusal :=
  issue u [u.b, u.c] [u.a] (fun s =>
    s.held 0 fun s =>
    s.loadLimit .dev fun s0 =>
    let q := fld (s0.g u.b) 10 0
    let (id, s) := (s0.completePopped s0.cur).newId
    let s := s.addOut { id := id, gs := [u.c], vs := [u.a], how := .fixed [] none, kind := .dev, need := 1, got := [], acq := if isAcq u then some (s.widened u.scope) else none, dropped := [] }
    match s.request s.cur s.me.blk.hold (.slice (q % 24)) (.pop q) none (some id) (s.g u.b) none with
    | none => .wait (.channel [ownerCode (.slice (q % 24))] 6) s0
    | some s => .done s) s

/-! ### Heron queries (R344 to R350) -/

/-- A head descriptor (R344). -/
structure Head where
  base : Word
  dim : Nat
  hor : Nat
  scl : BitVec 32
  deriving DecidableEq, Repr

/-- Read and check a descriptor at an own-pool offset (item 2 of R346). -/
def Tile.head (t : Tile) (off : Nat) : Option Head :=
  let w := fun i => BitVec.ofNat 64 (Mem.nat t.pool (off + 8 * i) 8)
  let dim := fld (w 1) 39 32
  if fld (w 1) 63 40 = 0 ∧ fld (w 2) 63 32 = 0 ∧ (w 3).toNat = 0 ∧ (w 4).toNat = 0 ∧ (w 5).toNat = 0 ∧ (w 6).toNat = 0 ∧ (w 7).toNat = 0 ∧
      (dim = 64 ∨ dim = 128) ∧ fld (w 0) 63 62 = 2 ∧ (w 0).toNat % 2 ^ 21 = 0
  then some { base := w 0, dim := dim, hor := fld (w 1) 31 0, scl := (w 2).setWidth 32 }
  else none

/-- An own-pool operand of HQRY or HAPP: any other place is an access-kind fault; then checks 2 to 6 of R279. -/
def State.ownOperand (s : State) (a : Word) (size align : Nat) (write : Bool) : Cause ⊕ Nat :=
  if s.offPool a then .inl causeKind
  else match s.find { size := size, align := align, rd := !write, wr := write, lock := none, spaces := 0x1, ord := false } a with
    | .at (.own off) _ => .inr off
    | .bad c => .inl c
    | _ => .inl causeKind

/-- Items 1 and 2 of R346: the descriptor of a unit. -/
def State.headOf (s : State) (a : Word) (f : Head → Act) : Act :=
  match s.ownOperand a 64 64 false with
  | .inl c => .trap c a
  | .inr off => match s.me.head off with
    | none => .trap causeHeron a
    | some h => f h

/-- Positions a row holds, and the row groups of a horizon (R345). -/
def Head.perRow (h : Head) : Nat := 512 / h.dim
def Head.groups (h : Head) : Nat := (h.hor + h.perRow - 1) / h.perRow
/-- Units of page k that hold a row (R346). -/
def Head.units (h : Head) (k : Nat) : Nat := min 256 (h.groups - 1024 * k)
/-- Bytes of a record (R346). -/
def Head.recSize (h : Head) : Nat := 16 + 4 * h.dim
/-- Address of page k. -/
def Head.page (h : Head) (k : Nat) : Word := h.base + BitVec.ofNat 64 (2 ^ 21 * k)

/-- Where a page of a head lies, for a read or a write (R346, R350). -/
inductive PageFound where
  | at (o : Owner) (pa : Nat) (hit : Nat)
  | bad (c : Cause)
  | miss
  | absent
  deriving DecidableEq, Repr

/-- Translate one page of a head: HS first, then the permission, then a stable page on a write. -/
def State.headPage (s : State) (a : Word) (write : Bool) : PageFound :=
  match s.find { size := 1, align := 1, rd := false, wr := false, lock := none, spaces := 0x4, ord := false } a with
  | .bad c => .bad c
  | .miss => .miss
  | .absent => .absent
  | .at (.far o pa _) (some i) =>
    match Tbl.look s.me.vol.tlbL.ents i with
    | none => .miss
    | some (_, w1) =>
      if !entryHs w1 then .bad causeKind
      else if (if write then !entryWr w1 else !entryRd w1) then .bad causePerm
      else if write && entrySt w1 then .bad causeStable
      else .at o pa i
  | .at _ _ => .bad causeKind

/-- What the pages of a query come to. -/
inductive PagesFound where
  | all (ps : List (Nat × Owner × Nat)) (hits : List Nat)
  | bad (c : Cause) (a : Word)
  | miss (a : Word)
  | absent
  deriving DecidableEq, Repr

/-- Translate pages in ascending order. -/
def State.headPages (s : State) (h : Head) : List Nat → PagesFound
  | [] => .all [] []
  | k :: r => match s.headPage (h.page k) false with
    | .bad c => .bad c (h.page k)
    | .miss => .miss (h.page k)
    | .absent => .absent
    | .at o pa i => match s.headPages h r with
      | .all ps hs => .all ((k, o, pa) :: ps) (i :: hs)
      | f => f

/-- A Heron token (R349). -/
def heronTokenWord (st nr : Nat) (mask : Nat) : Word := BitVec.ofNat 64 (2 ^ 63 + st * 2 ^ 48 + nr % 2 ^ 16 * 2 ^ 32 + mask % 2 ^ 32)

/-- The scan requests of a query: one for each unit that holds a row (R346). -/
def scanRequests (h : Head) (id : Nat) (ps : List (Nat × Owner × Nat)) : List ((Owner × List Nat) × MemOp × Word) :=
  ps.flatMap (fun e => (List.range (h.units e.1)).map (fun u => ((e.2.1, []), MemOp.scan id e.2.2 e.1 u, h.page e.1)))

/-- The head that a posted query scans. -/
def Query.head (q : Query) : Head := { base := q.base, dim := q.dim, hor := q.hor, scl := q.scl }

/-- Post a query that passed its checks (R346, R349). One that an earlier operation's lock holds sends its scans, and numbers them, when its
turn comes (R263). -/
def State.postQuery (s0 : State) (u : VUnit) (h : Head) (w : Word) (qoff : Nat) (ps : List (Nat × Owner × Nat)) (hits : List Nat) : Act :=
  let np := fld w 49 48 + 1
  let total := ((ps.map (fun e => h.units e.1)).foldl (fun a b => a + b) 0)
  let area := fld w 20 0
  if 4 ≤ s0.me.blk.en.queries.length then .wait .heron s0
  else match (List.range 4).find? (fun i => s0.me.blk.en.queries.all (fun k => k.idx != i)) with
  | none => .wait .heron s0
  | some i =>
    let (id, s) := (s0.touch hits).newId
    let out : Outs := { id := id, gs := [u.a], vs := [], how := .fixed [(u.a, heronTokenWord 0 0 0)] none, kind := .heron, need := 0, got := [], acq := none, dropped := [] }
    if total = 0 then .done ((s.addOut out).released)
    else if s.me.freeLocks = 0 then .stall
    else
      let rel := s.relScope u
      let q : Query := { idx := i, id := id, ctx := s.me.blk.hold, tok := u.a, base := h.base, hor := h.hor, dim := h.dim, scl := h.scl, q := Mem.bytes s.me.pool qoff (2 * h.dim), k0 := fld w 47 32, area := area, total := total, left := total, emask := 0, refused := false, scope := match rel with | some k => max k (s.widened u.scope) | none => s.widened u.scope }
      let t := s.me.lock true (34 + i) area (np * 256 * h.recSize)
      let waits := t.engineBlocked (34 + i) id
      let s := (s.modMe fun _ => t.modEn fun e => { e with queries := e.queries ++ [{ q with waits := waits, pages := if waits then ps else [], rel := rel }] }).addOut
        { out with how := .fixed [] none, need := 1 }
      match s.requests s.cur s.me.blk.hold none (some id) rel (if waits then [] else scanRequests h id ps) with
      | none => .wait (.channel (ps.map (fun e => ownerCode e.2.1)) 6) s0
      | some s => .done s.released

/-- HQRY (R346). The query is read at issue, so that a write lock on it holds the unit (R263). -/
def execHqry (u : VUnit) (s : State) : Host.Outcome State Fault Refusal :=
  issue u [u.a, u.b, u.c] [] (fun s =>
    let w := s.g u.a
    let np := fld w 49 48 + 1
    let area := BitVec.ofNat 64 (fld w 20 0)
    if s.me.blk.lr.ord then .trap causeOrdered (s.g u.b)
    else s.held 0 fun s =>
    s.headOf (s.g u.b) fun h =>
    if fld w 63 50 ≠ 0 ∨ fld w 31 21 ≠ 0 then .trap causeHeron (s.g u.b)
    else match s.ownOperand (s.g u.c) (2 * h.dim) 128 false with
    | .inl c => .trap c (s.g u.c)
    | .inr qoff => match s.ownOperand area (np * 256 * h.recSize) 128 true with
      | .inl c => .trap c area
      | .inr _ => if s.me.lockHit false qoff (2 * h.dim) then .stall else match s.headPages h ((List.range np).map (fun i => fld w 47 32 + i)) with
        | .bad c a => .trap c a
        | .miss a => s.missWait 0 0 a
        | .absent => .absent
        | .all ps hits => s.postQuery u h w qoff ps hits) s

/-- Row group, page, unit and offset in the page of a position's key (R345). -/
def Head.place (h : Head) (p : Nat) : Nat × Nat × Nat :=
  let r := p / h.perRow
  let r1 := r % 1024
  (r / 1024, r1 % 256, 8192 * (r1 % 256) + 2048 * (r1 / 256) + 2 * h.dim * (p % h.perRow))

/-- HAPP (R350). Its read lock lasts for the unit's issue: an entry must be free for it (R364), and a write lock on the source
holds the unit (R263). -/
def execHapp (u : VUnit) (s : State) : Host.Outcome State Fault Refusal :=
  issue u [u.a, u.b, u.c] [] (fun s =>
    let w := s.g u.a
    if s.me.blk.lr.ord then .trap causeOrdered (s.g u.b)
    else s.held 0 fun s0 =>
    let s := s0
    s.headOf (s.g u.b) fun h =>
    if fld w 63 32 ≠ 0 then .trap causeHeron (s.g u.b)
    else match s.ownOperand (s.g u.c) (4 * h.dim) 128 false with
    | .inl c => .trap c (s.g u.c)
    | .inr off =>
      if s.me.freeLock.isNone || s.me.lockHit false off (4 * h.dim) then .stall else
      let (k, n, at_) := h.place (fld w 31 0)
      match s.headPage (h.page k) true with
      | .bad c => .trap c (h.page k)
      | .miss => s.missWait 0 1 (h.page k)
      | .absent => .absent
      | .at o pa i =>
        let rel := s.relScope u
        match (s.touch [i]).journal s.cur s.me.blk.hold 1 none with
        | none => .stall
        | some (j, s) =>
          let rows := [(pa + at_, Mem.bytes s.me.pool off (2 * h.dim)), (pa + at_ + 1024, Mem.bytes s.me.pool (off + 2 * h.dim) (2 * h.dim))]
          match s.request s.cur s.me.blk.hold o (.append n (fld w 31 0) h.base.toNat rows) (some j) none (h.page k) rel with
          | none => .wait (.channel [ownerCode o] 6) s0
          | some s => .done s.released) s

end Sys2Proof.Machine
end

