-- ==== Sys2Proof/Machine/Table.lean ====
section
/-! DEFINITION. Page 5: translation, range locks, membership, schedules, decay classes and latency (R373 to R388). -/

namespace Sys2Proof.Machine

/-- An illegal instruction found in execution: TRA = PC (R426). -/
def State.illegal (s : State) : Act := .trap causeIllegal s.cx.pc

/-- The unit is used on another kind of core than R373 names. -/
def State.onTsc (s : State) (f : State → Act) : Act := if isTsc s.cur then f s else s.illegal
def State.onTile (s : State) (f : State → Act) : Act := if isTile s.cur then f s else s.illegal

/-- The cluster of the TSC in hand. -/
def State.tscCluster (s : State) : Nat := s.cur - tscBase

/-! ### TLBs (R360, R361) -/

/-- Entries of a TLB kind. -/
def tlbSize : Nat → Nat
  | 0 => 32
  | 1 => 16
  | _ => 64

/-- The entry as it is stored; one that has never been written reads zeros (R375). -/
def Tlb.entry (t : Tlb) (i : Nat) : Word × Word := Tbl.get t.ents i (0, 0)

/-- The conditions of R360 on a word pair. R360 calls bits [61:57] of word 0 reserved and does not say that they must be zero: the
model takes a pair with one of them set for malformed (DESIGN CHOICE, entry 67). -/
def entryOk60 (w0 w1 : Word) : Bool :=
  let spc := fld w0 63 62
  (spc == 2 || spc == 3) && fld w0 61 57 == 0 && (spc == 3 || fld w0 56 48 == 0) && fld w1 62 61 != 3 &&
    fld w0 56 16 % 2 ^ (pageBits w1 - 16) == 0 && fld w1 51 16 % 2 ^ (pageBits w1 - 16) == 0 &&
    (!entrySt w1 || spc == 2) && (!entryHs w1 || (spc == 2 && fld w1 62 61 == 1)) && (!entryBlv w1 || spc == 3) &&
    (entryBlv w1 || fld w1 15 0 == 0)

/-- Do two entries of one ASID overlap, at either page size? -/
def entryOverlaps (e f : Word × Word) : Bool :=
  let n := max (pageBits e.2) (pageBits f.2)
  entryVld f.2 && fld e.1 63 62 == fld f.1 63 62 && fld e.1 11 0 == fld f.1 11 0 &&
    fld e.1 56 16 * 2 ^ 16 / 2 ^ n == fld f.1 56 16 * 2 ^ 16 / 2 ^ n

/-- Clear VLD of the entries that a test names; an invalid entry is pinned no longer. -/
def Tlb.kill (t : Tlb) (p : Nat → Word × Word → Bool) : Tlb :=
  { t with
    ents := t.ents.map (fun e => if p e.1 e.2 then (e.1, e.2.1, e.2.2 &&& 0x7FFFFFFFFFFFFFFF) else e)
    pins := t.pins.filter (fun k => !p k.1 (t.entry k.1)) }

/-- Where R361 inserts: the lowest invalid entry, else the least recently used one, or the FIFO pointer for kind 1; an entry that a
PSCH's load has pinned is not replaced. The flag says that the entry was valid. -/
def Tlb.slotFor (t : Tlb) (kind : Nat) : Option (Nat × Bool) :=
  match (List.range (tlbSize kind)).find? (fun i => !entryVld (t.entry i).2) with
  | some i => some (i, false)
  | none =>
    if kind = 1 then some (t.ptr % 16, true)
    else (t.order.find? (fun i => !t.pins.any (fun k => k.1 == i))).map (fun i => (i, true))

/-- Insert an entry, overlapping ones invalidated first (R361, R376); `none` while every entry is pinned. -/
def Tlb.fill (t : Tlb) (kind : Nat) (w0 w1 : Word) : Option Tlb :=
  let t := t.kill (fun _ f => entryOverlaps (w0, w1) f)
  (t.slotFor kind).map fun e =>
    { Tlb.touch { t with ents := Tbl.put t.ents e.1 (w0, w1) } e.1 with
        ptr := if kind = 1 && e.2 then (t.ptr + 1) % 16 else t.ptr }

/-- A TLB of a cluster by kind and position. -/
def State.tlb (s : State) (k kind pos : Nat) : Tlb :=
  match kind with
  | 0 => (s.tile (tileAt k pos)).vol.tlbL
  | 1 => (s.tile (tileAt k pos)).vol.tlbC
  | _ => (s.cluster k).mtlb
def State.setTlb (s : State) (k kind pos : Nat) (f : Tlb → Tlb) : State :=
  match kind with
  | 0 => s.modTile (tileAt k pos) fun t => t.modVol fun v => { v with tlbL := f v.tlbL }
  | 1 => s.modTile (tileAt k pos) fun t => t.modVol fun v => { v with tlbC := f v.tlbC }
  | _ => s.modCluster k fun c => { c with mtlb := f c.mtlb }

/-- A bit-31 style selector (R374): OP, KIND, POS, ALLP, IDX, ASID. -/
def selOp (w : Word) : Nat := fld w 31 30
def selKind (w : Word) : Nat := fld w 29 28
def selPos (w : Word) : Nat := fld w 27 24
def selIdx (w : Word) : Nat := fld w 17 12
def selAsid (w : Word) : Nat := fld w 11 0

/-- Is a TLBI selector legal with its address (R374, R378)? A field that the operation does not use is zero. -/
def tlbiOk (w a : Word) : Bool :=
  let op := selOp w
  let kind := selKind w
  let all := w.getLsbD 23
  fld w 63 32 == 0 && fld w 22 18 == 0 && (kind != 3 || op != 0) && (!(kind == 2 || all) || selPos w == 0) &&
    (!(kind == 2) || !all) &&
    (if op = 0 then decide (selIdx w < tlbSize kind) else selIdx w == 0) && (op == 1 || op == 2 || selAsid w == 0) &&
    (op != 1 || decide (2 ≤ fld a 63 62))

/-- Is a TLBP selector legal? -/
def tlbpOk (w : Word) : Bool :=
  let op := selOp w
  let kind := selKind w
  fld w 63 32 == 0 && fld w 22 18 == 0 && !w.getLsbD 23 &&
    (match op with
      | 0 => kind != 3 && decide (selIdx w < tlbSize kind) && selAsid w == 0 && (kind != 2 || selPos w == 0)
      | 1 => kind == 0 && selPos w == 0 && selIdx w == 0 && selAsid w == 0
      | 2 => kind == 0 && selPos w == 0 && selIdx w == 0
      | _ => false)

/-- The entries that a TLBI names (R378). -/
def tlbiNames (w a : Word) (i : Nat) (e : Word × Word) : Bool :=
  match selOp w with
  | 0 => i == selIdx w
  | 1 => fld e.1 63 62 == fld a 63 62 && fld e.1 11 0 == selAsid w && fld e.1 56 16 * 2 ^ 16 / 2 ^ pageBits e.2 == fld a 56 0 / 2 ^ pageBits e.2
  | 2 => fld e.1 11 0 == selAsid w
  | _ => true

/-- TLBI (R378). -/
def execTlbi (u : VUnit) (s : State) : Host.Outcome State Fault Refusal :=
  issueSupervisor u [u.a, u.b] (fun s => s.onTsc fun s =>
    let w := s.g u.b
    let a := s.g u.a
    let k := s.tscCluster
    if !tlbiOk w a then s.illegal
    else
      let kinds := if selKind w = 3 then [0, 1, 2] else [selKind w]
      let poss := if w.getLsbD 23 then List.range 16 else [selPos w]
      .done (kinds.foldl (fun s kind =>
        if kind = 2 then s.setTlb k 2 0 (fun t => t.kill (tlbiNames w a))
        else poss.foldl (fun s p => s.setTlb k kind p (fun t => t.kill (tlbiNames w a))) s) s)) s

/-- The request word of R375. -/
def TscReq.word (r : TscReq) : Word :=
  BitVec.ofNat 64 ((if r.acc = 3 then r.tag.toNat else 0) * 2 ^ 48 + r.gen.toNat * 2 ^ 44 + r.acc % 4 * 2 ^ 42 +
    (if r.acc = 3 then r.res % 4 else 0) * 2 ^ 38 + r.slot % 64 * 2 ^ 32 + r.asid.toNat * 2 ^ 12 + r.ctx % 8 * 2 ^ 8 + r.kind % 4 * 2 ^ 4 + r.pos % 16)

/-- Take a request: an ACC 3 request frees its slot, another stays until a TLBW answers it (R375). -/
def Cluster.takeReq (c : Cluster) (slot : Nat) : Cluster :=
  { c with reqs := c.reqs.filterMap (fun r => if r.slot = slot then (if r.acc = 3 then none else some { r with taken := true }) else some r) }

/-- TLBP (R375). -/
def execTlbp (u : VUnit) (s : State) : Host.Outcome State Fault Refusal :=
  issueSupervisor u [u.a, u.a + 1, u.b] (fun s => s.onTsc fun s =>
    let w := s.g u.b
    let k := s.tscCluster
    let put := fun (s : State) (x y : Word) => Act.done ((s.setG u.a x).setG (u.a + 1) y)
    if !tlbpOk w then s.illegal
    else match selOp w with
      | 0 => let e := (s.tlb k (selKind w) (selPos w)).entry (selIdx w); put s e.1 e.2
      | 2 => put s ((Tbl.get (s.cluster k).gent (selAsid w) 0).setWidth 64) 0
      | _ => match (s.cluster k).reqs.find? (fun r => !r.taken) with
        | none => .wait .requests s
        | some r => put (s.modCluster k fun c => c.takeReq r.slot) r.addr r.word) s

/-! ### TLBW (R376) -/

def twTag (t : Word) : BitVec 16 := BitVec.ofNat 16 (fld t 63 48)
def twMode (t : Word) : Nat := fld t 41 40
def twRes (t : Word) : Nat := fld t 39 38
def twReq (t : Word) : Nat := fld t 37 32
def twCtx (t : Word) : Nat := fld t 10 8
def twKind (t : Word) : Nat := fld t 5 4
def twPos (t : Word) : Nat := fld t 3 0

/-- Change the copies of a tile that a test names. -/
def State.modCopies (s : State) (core : Nat) (p : CopyOp → Bool) (f : CopyOp → CopyOp) : State :=
  s.modTile core fun t => t.modEn fun e => { e with copies := e.copies.map (fun c => if p c then f c else c) }

/-- Is a context waiting on a request slot? -/
def State.onSlot (s : State) (core c slot : Nat) : Bool := ((s.tile core).ctx c).run == .waiting (.xlate slot)

/-- Answer a request whose slot is freed (R376, R429). R376 does not say what a failure does to a context that has left its wait for the
handler of an asynchronous trap (R427): the model raises no upcall (DESIGN CHOICE, entry 68). -/
def State.answer (s : State) (t g0 : Word) (k : Nat) (r : TscReq) : State :=
  let core := tileAt k r.pos
  let page : PageReq := { tag := twTag t, pasid := (s.cx.psd).setWidth 20, addr := g0 &&& 0xFFFFFFFFFFFF0000, acc := r.acc, cluster := k, kind := r.kind, pos := r.pos, ctx := r.ctx, asid := r.asid, gen := r.gen }
  let ask := fun (s : State) => { s with cp := { s.cp with pages := s.cp.pages ++ [page] } }
  if r.acc = 2 then s
  else if r.kind = 1 then
    let mine := fun (c : CopyOp) => c.slot == some r.slot
    if twMode t = 1 then s.modCopies core mine (fun c => { c with slot := none })
    else if twRes t = 3 then ask (s.modCopies core mine (fun c => { c with slot := none, tag := some (twTag t) }))
    else s.modCopies core mine (fun c => { c with slot := none, st := if twRes t = 1 then 3 else 4 })
  else
    let s := s.logArrival core .rsu r.ctx true [] none
    if twMode t = 1 then s
    else if twRes t = 3 then
      let s := ask s
      if s.onSlot core r.ctx r.slot then s.enterUpcall core r.ctx r.addr (twTag t).toNat 0 else s
    else if s.onSlot core r.ctx r.slot then s.enterUpcall core r.ctx r.addr 0 (twRes t + 1) else s

/-- The notification of MODE 2 (R376): a copy that holds the tag, or a class 1 notice to the position. -/
def State.notify (s : State) (t g0 : Word) (k : Nat) : Option State :=
  let core := tileAt k (twPos t)
  if twKind t = 1 then
    some (s.modCopies core (fun c => c.tag == some (twTag t)) (fun c =>
      { c with tag := none, st := match twRes t with | 0 => c.st | 1 => 3 | _ => 4 }))
  else
    let n : Notice := { ctx := twCtx t, tag := twTag t, ans := BitVec.ofNat 8 (twRes t + 1), asid := BitVec.ofNat 12 (fld g0 11 0), gen := BitVec.ofNat 4 (fld g0 15 12) }
    s.sendPkt core 1 32 none (fun _ => .notice n)

/-- TLBW (R376). -/
def execTlbw (u : VUnit) (s : State) : Host.Outcome State Fault Refusal :=
  issueSupervisor u [u.a, u.a + 1, u.b] (fun s => s.onTsc fun s0 =>
    let s := s0
    let t := s.g u.b
    let w0 := s.g u.a
    let w1 := s.g (u.a + 1)
    let k := s.tscCluster
    let fill := twMode t ≠ 3 && twRes t == 0
    let hit := if twMode t = 1 ∨ twMode t = 3 then (s.cluster k).reqs.find? (fun r => r.slot == twReq t && r.acc != 3) else none
    if twKind t = 3 ∨ (twMode t < 2 ∧ twRes t ≠ 0) ∨ (twMode t = 2 ∧ twRes t = 3) ∨ (twMode t = 3 ∧ twRes t = 0) ∨ (fill ∧ !entryOk60 w0 w1)
    then s.illegal
    else if hit.any (fun r => r.acc != 2) ∧ twRes t = 3 ∧ 4096 ≤ s.cp.pages.length then .stall
    else
      let filled := if fill then ((s.tlb k (twKind t) (twPos t)).fill (twKind t) w0 w1).map (fun n => s.setTlb k (twKind t) (twPos t) (fun _ => n)) else some s
      match filled with
      | none => .stall
      | some s =>
        let s := match hit with
          | none => s
          | some r => ((s.modCluster k fun c => { c with reqs := c.reqs.filter (fun q => q.slot != r.slot) }).answer t w0 k r)
        if twMode t = 2 then
          match s.notify t w0 k with
          | none => .wait (.channel [tileAt k (twPos t)] 1) s0
          | some s => .done s
        else .done s) s

/-- Empty every TLB of a cluster (R363). -/
def State.flushCluster (s : State) (k : Nat) : State :=
  (List.range 16).foldl (fun s p => (s.setTlb k 0 p (fun t => t.kill (fun _ _ => true))).setTlb k 1 p (fun t => t.kill (fun _ _ => true)))
    (s.setTlb k 2 0 (fun t => t.kill (fun _ _ => true)))

/-- ASIDG (R363, R379). -/
def execAsidg (u : VUnit) (s : State) : Host.Outcome State Fault Refusal :=
  issueSupervisor u [u.a, u.b] (fun s => s.onTsc fun s =>
    let w := s.g u.b
    let k := s.tscCluster
    if fld w 63 12 ≠ 0 then s.illegal
    else
      let n := Tbl.get (s.cluster k).gent (fld w 11 0) 0 + 1
      let s := s.modCluster k fun c => { c with gent := Tbl.put c.gent (fld w 11 0) n }
      .done ((if n = 0 then s.flushCluster k else s).setG u.a (n.setWidth 64))) s

/-! ### Range locks (R364, R381, R382) -/

/-- A range-lock entry as a word (R364). -/
def Lock.word (l : Lock) : Word :=
  BitVec.ofNat 64 (2 ^ 47 + l.wl.toNat * 2 ^ 46 + l.src.toNat * 2 ^ 40 + l.last.toNat * 2 ^ 16 + l.first.toNat)

/-- RLQ by offset (R381). -/
def execRlq (u : VUnit) (s : State) : Host.Outcome State Fault Refusal :=
  issue u [u.a, u.b] [] (fun s => s.onTile fun s =>
    let a := s.g u.b
    if fld a 63 21 ≠ 0 then .trap causeBounds a
    else
      let n := a.toNat / 32
      let v := match (s.me.blk.en.locks.toList.filterMap id).find? (fun l => l.covers n n) with | some l => l.word | none => 0
      let (v, s) := s.reading v
      .done (s.setG u.a v)) s
/-- RLQ by entry (R381): one that is not valid reads 0 throughout, though R381 does not say what its other fields read after use (DESIGN
CHOICE, entry 68). -/
def execRlqImm (u : VUnit) (s : State) : Host.Outcome State Fault Refusal :=
  issue u [u.a] [] (fun s => s.onTile fun s =>
    let v := match s.me.blk.en.locks.toList.getD u.ik.toNat none with | some l => l.word | none => 0
    let (v, s) := s.reading v
    .done (s.setG u.a v)) s
/-- RCLS (R382). -/
def execRcls (u : VUnit) (s : State) : Host.Outcome State Fault Refusal :=
  issueSupervisor u [u.a, u.b] (fun s => s.onTsc fun s =>
    let p := s.g u.a
    let m := s.g u.b
    if fld p 63 4 ≠ 0 ∨ fld m 63 48 ≠ 0 then s.illegal
    else .done (s.modTile (tileAt s.tscCluster (fld p 3 0)) fun t => t.modEn fun e =>
      { e with locks := Vector.ofFn fun i => if m.getLsbD i.val then none else e.locks.get i })) s

/-! ### Membership, format contexts, schedules (R383 to R386) -/

/-- BMSK (R365, R383): the pending copies. -/
def execBmsk (u : VUnit) (s : State) : Host.Outcome State Fault Refusal :=
  issue u [u.a] [] (fun s => s.onTile fun s =>
    let x := s.g u.a
    let n := u.ik.toNat
    if fld x 63 2 ≠ 0 then s.illegal
    else .done (s.modMe fun t => t.modSy fun k => { k with memP := setFld k.memP n n (fld x 0 0), drnP := setFld k.drnP n n (fld x 1 1) })) s

/-- FCTX (R366, R384): waits until the position's command queue is empty. -/
def execFctx (u : VUnit) (s : State) : Host.Outcome State Fault Refusal :=
  issueSupervisor u [u.a, u.b] (fun s => s.onTsc fun s =>
    let p := s.g u.a
    let x := s.g u.b
    let core := tileAt s.tscCluster (fld p 3 0)
    if fld p 63 4 ≠ 0 ∨ fld x 63 5 ≠ 0 ∨ fld x 3 3 ≠ 0 ∨ 5 ≤ fld x 2 0 then s.illegal
    else if !(s.tile core).blk.arr.queue.isEmpty then .stall
    else
      let af := fld x 4 4 == 1
      let wf := BitVec.ofNat 3 (fld x 2 0)
      .done (s.modTile core fun t => t.modArr fun a => { a with af := af, wf := wf, afNext := af, wfNext := wf })) s

/-- PSCH (R367, R385): it reads the image, and waits until that has arrived and no exchange names the schedule. -/
def execPsch (u : VUnit) (s : State) : Host.Outcome State Fault Refusal :=
  issue u [u.b] [] (fun s => s.onTile fun s =>
    s.held 0 fun s0 =>
    let s := s0
    let n := u.a.toNat
    let a := s.g u.b
    let k := clusterOf s.cur
    if !s.me.blk.lr.pres.getLsbD 3 then .trap causeArray a
    else if fld a 63 62 ≠ 2 ∨ (s.classify a 256).isNone then .trap causeBounds a
    else if a.toNat % 256 ≠ 0 then .trap causeAlign a
    else if (match s.me.blk.arr.mx with | some (_, _, m) => m == n | none => false) then .trap causeArray a
    else
      let (asid, gen) := s.asidGen s.cur
      match (s.cluster k).mtlb.hit a asid gen with
      | none => s.missWait 2 0 a
      | some (i, _, w1) =>
        if !entryRd w1 then .trap causePerm a
        else s.loadLimit .dev fun s =>
          match s.farPlace 2 (entryPa w1 a) (entryHs w1) (entrySt w1) with
          | .at (.far o pa _) _ =>
            let (id, s) := s.newId
            let s := s.setTlb k 2 0 (fun t => { t.touch i with pins := t.pins ++ [(i, id)] })
            let s := s.addOut { id := id, gs := [], vs := [], how := .schedule n a, kind := .dev, need := 1, got := [], acq := none, dropped := [] }
            match s.requestFor s.cur s.me.blk.hold o (.read [(pa, 0)] 256) none (some id) a none (if entrySt w1 then [pa] else []) none with
            | none => .wait (.channel [ownerCode o] 6) s0
            | some s => .hold (.image id u.len []) s
          | _ => .absent) s

/-- XSCH (R368, R386). -/
def execXsch (u : VUnit) (s : State) : Host.Outcome State Fault Refusal :=
  issue u [u.a, u.b] [] (fun s => s.onTile fun s =>
    let a := s.g u.a
    let n := (s.g u.b).toNat
    let bind := fun (t : Tile) (b c : Nat) => t.modSy fun k => { k with xtb := b, xcnt := c }
    if 1024 < n then s.illegal
    else if n = 0 then .done (s.modMe fun t => bind (t.unlock 40) 0 0)
    else if fld a 63 21 ≠ 0 then .trap causeBounds a
    else match s.find { size := 8 * n, align := 128, rd := true, wr := false, lock := some false, spaces := 0x1, ord := false } a with
      | .bad c => .trap c a
      | .at (.own off) _ =>
        let t := s.me.unlock 40
        if t.freeLock.isNone then .stall
        else .done (s.modMe fun _ => bind (t.lock false 40 off (8 * n)) off n)
      | _ => .trap causeKind a) s

/-! ### Decay classes and latency (R387, R388) -/

/-- Partition of the gang that holds a cluster, if one does. -/
def State.clusterPart (s : State) (k : Nat) : Option Nat :=
  ((List.range 16).find? (fun p => (s.tile (tileAt k p)).blk.lr.gang.isSome)).map (fun p => (s.tile (tileAt k p)).blk.lr.prt)

/-- DCLS (R369, R387): the pending copies of the cluster's tiles, and a request to each of the 24 home slices; the TSC switches
until they have acknowledged. -/
def execDcls (u : VUnit) (s : State) : Host.Outcome State Fault Refusal :=
  issueSupervisor u [u.a, u.b] (fun s => s.onTsc fun s0 =>
    let s := s0
    let x := s.g u.a
    let y := s.g u.b
    let c := fld x 3 0
    let e := fld x 12 8
    let k := s.tscCluster
    if fld x 7 4 ≠ 0 ∨ fld x 63 13 ≠ 0 ∨ c = 0 ∨ 22 < e ∨ fld y 63 32 ≠ 0 then s.illegal
    else
      let v : BitVec 32 := y.setWidth 32
      match s.clusterPart k with
      | none => .done s
      | some p =>
        let sent := ((List.range 16).foldl (fun (s : State) q => s.modTile (tileAt k q) fun t => t.modVol fun w => { w with decayP := Tbl.put w.decayP (32 * c + e) v }) s).requests
            s.cur s.me.blk.hold none none none ((List.range 24).map (fun i => ((.slice i, []), MemOp.decay p c e v, x)))
        match sent with
        | none => .wait (.channel ((List.range 24).map (fun i => ownerCode (.slice i))) 6) s0
        | some s => .hold (.slices u.len) s) s

/-- LATQ (R388): a reading that the arrival log records. -/
def execLatq (u : VUnit) (s : State) : Host.Outcome State Fault Refusal :=
  issue u [u.a, u.b] [] (fun s => s.onTile fun s =>
    let w := s.g u.b
    let x := fld w 15 8
    let y := fld w 7 0
    if fld w 63 16 ≠ 0 ∨ 191 < x ∨ 159 < y then .trap causeBounds w
    else
      let (v, s) := s.reading (BitVec.ofNat 64 (s.me.vol.mapg.toNat * 2 ^ 32 + s.hops s.cur (tileNo x y)))
      .done (s.setG u.a v)) s

end Sys2Proof.Machine
end

