-- ==== Sys2Proof/Machine/Counter.lean ====
section
/-! DEFINITION. Page 6: barriers, time, the gang step, stamped words, checkpoints and readings (R407 to R423). -/

namespace Sys2Proof.Machine

/-! ### Barriers (R396, R409) -/

/-- A domain of which the tile is no active member is an illegal instruction (R409). -/
def State.member (s : State) (n : Nat) (f : State → Act) : Act :=
  if s.me.blk.sy.mem.getLsbD n then f s else s.illegal

/-- ARR[n] is set, held from the tree as a release at gang scope; with domain 0 the step request and OVT travel along
(R409, R413). -/
def SyncPart.arrive (k : SyncPart) (n ctx id : Nat) : SyncPart :=
  if k.arr.getLsbD n then k
  else
    let k := { k with arr := setFld k.arr n n 1, arvs := k.arvs ++ [(n, ctx, id)] }
    if n = 0 then { k with stqC := k.stqC || k.stq, ovtC := k.ovtC || k.ovt, stq := false, ovt := false } else k

/-- ARV (R409). -/
def execArv (u : VUnit) (s : State) : Host.Outcome State Fault Refusal :=
  issue u [] [] (fun s => s.member u.b.toNat fun s =>
    .done (s.modMe fun t => t.modSy fun k => k.arrive u.b.toNat t.blk.hold s.nextId)) s
/-- WTB (R409). -/
def execWtb (u : VUnit) (s : State) : Host.Outcome State Fault Refusal :=
  issue u [u.a] [] (fun s => s.member u.b.toNat fun s =>
    if s.me.blk.sy.arr.getLsbD u.b.toNat then .hold (.wtb u.b.toNat u.a u.len) s else .done (s.setG u.a 0)) s
/-- The word of BARQ (R409). -/
def SyncPart.query (k : SyncPart) (n : Nat) : Word :=
  BitVec.ofNat 64 ((k.mem.getLsbD n).toNat * 2 ^ 63 + (k.drn.getLsbD n).toNat * 2 ^ 62 + (k.arr.getLsbD n).toNat * 2 ^ 61 +
    (k.epo.getLsbD n).toNat * 2 ^ 60 + (k.pbc.toList.getD n 0).toNat)
/-- BARQ (R409). -/
def execBarq (u : VUnit) (s : State) : Host.Outcome State Fault Refusal :=
  issue u [u.a] [] (fun s => s.member u.b.toNat fun s => .done (s.setG u.a (s.me.blk.sy.query u.b.toNat))) s

/-- The tiles of a core's gang rectangle in rank order (R46). -/
def LaunchRegs.tiles (r : LaunchRegs) : List Nat :=
  (List.range r.gh).flatMap (fun j => (List.range r.gw).map (fun i => tileNo (r.gxo + i) (r.gyo + j)))

/-- The active members of a domain of a core's gang, in ascending rank. -/
def State.members (s : State) (core n : Nat) : List Nat :=
  (s.tile core).blk.lr.tiles.filter (fun t => (s.tile t).blk.sy.mem.getLsbD n)

def State.gang? (s : State) (g : Nat) : Option Gang := Tbl.look s.cp.gangs g
def State.modGang (s : State) (g : Nat) (f : Gang → Gang) : State :=
  match s.gang? g with
  | none => s
  | some k => { s with cp := { s.cp with gangs := Tbl.put s.cp.gangs g (f k) } }

/-- PRB (R399, R409): probes of one domain run one at a time. A tile that replays presents none (R440): the probe of
the original run, if it still runs, stands for it. -/
def execPrb (u : VUnit) (s : State) : Host.Outcome State Fault Refusal :=
  issue u [u.a] [] (fun s => s.member u.b.toNat fun s =>
    match s.me.blk.lr.gang with
    | none => s.illegal
    | some g =>
      let (id, s) := s.newId
      let n := u.b.toNat
      let p : Probe := { tile := s.cur, ctx := s.me.blk.hold, count := s.me.blk.ct.ucnt, left := s.members s.cur n, sum := 0, black := false }
      let old := fun (q : Probe) => q.tile == p.tile && q.ctx == p.ctx && q.count == p.count
      let s := if s.me.vol.replay.isSome then s else s.modGang g fun k =>
        if (Tbl.get k.probes n []).any old then k else { k with probes := Tbl.put k.probes n (Tbl.get k.probes n [] ++ [p]) }
      .done (s.addOut
        { id := id, gs := [u.a], vs := [], how := .probe n, kind := .other, need := 1, got := [], acq := none, dropped := [] })) s

/-! ### Time and deadlines (R410 to R412) -/

/-- GETT (R410). -/
def execGett (u : VUnit) (s : State) : Host.Outcome State Fault Refusal :=
  issue u [u.a] [] (fun s => let (v, s) := s.reading (s.timeAt s.cur); .done (s.setG u.a v)) s
/-- The value of SLACK (R410). -/
def slackOf (r : LaunchRegs) (n : Nat) (now : Word) : Word :=
  if r.dln = 0xFFFFFFFFFFFFFFFF then 0x7FFFFFFFFFFFFFFF
  else BitVec.ofInt 64 (clampInt (-(2 ^ 63)) (2 ^ 63 - 1) (((if n = 0 then r.brt else r.dln).toNat : Int) - now.toNat))
/-- SLACK (R410). -/
def execSlack (u : VUnit) (s : State) : Host.Outcome State Fault Refusal :=
  issue u [u.a] [] (fun s =>
    let (v, s) := s.reading (slackOf s.me.blk.lr u.ik.toNat (s.timeAt s.cur))
    .done (s.setG u.a v)) s

/-- Set one bit of the validity word, in a diverted context only (R71, R411). -/
def State.validate (s : State) (n : Nat) : Act :=
  if s.cx.diverted then .done (s.modMe fun t => t.modLr fun r => { r with vwd := r.vwd ||| (1 <<< n) }) else s.illegal
/-- VALID with an immediate (R411). -/
def execValid (u : VUnit) (s : State) : Host.Outcome State Fault Refusal :=
  issue u [] [] (fun s => s.validate u.ik.toNat) s
/-- VALID with a register (R411). -/
def execValidReg (u : VUnit) (s : State) : Host.Outcome State Fault Refusal :=
  issue u [u.b] [] (fun s => if fld (s.g u.b) 63 6 ≠ 0 then s.illegal else s.validate (fld (s.g u.b) 5 0)) s
/-- BRIMX (R412): ends the wrap-up of a diverted context. -/
def execBrimx (u : VUnit) (s : State) : Host.Outcome State Fault Refusal :=
  issue u [] [] (fun s => if s.cx.diverted then .away s.endTask else s.illegal) s

/-! ### The gang step (R413, R414) -/

/-- STEP (R413). -/
def execStep (u : VUnit) (s : State) : Host.Outcome State Fault Refusal :=
  issue u [u.b] [] (fun s =>
    if fld (s.g u.b) 63 1 ≠ 0 then s.illegal
    else .done (s.modMe fun t => t.modSy fun k => { k with stq := true, ovt := k.ovt || (s.g u.b).getLsbD 0 })) s
/-- GSTEP (R414): n = 0 asks the step unit, which fixes the value when the request arrives; n = 1 reads STQ and OVT. -/
def execGstep (u : VUnit) (s : State) : Host.Outcome State Fault Refusal :=
  issue u [u.a] [] (fun s =>
    let k := s.me.blk.sy
    if u.ik = 0 then
      let (id, s) := s.newId
      .done (s.addOut { id := id, gs := [u.a], vs := [], how := .gst u.a, kind := .other, need := 1, got := [], acq := none, dropped := [] })
    else .done (s.setG u.a (BitVec.ofNat 64 ((k.stq || k.stqC).toNat * 2 + (k.ovt || k.ovtC).toNat)))) s

/-! ### Stamped words (R415 to R420) -/

/-- G (R415), and an entry of a decay table (R369): one that neither a release nor DCLS has written reads 1.0 (entry 1). -/
def State.stepG (s : State) : BitVec 24 := s.me.blk.lr.steps.setWidth 24
def decayEntry (t : Tbl (BitVec 32)) (c k : Nat) : Nat := (Tbl.get t (32 * c + k) 0x3F800000).toNat

/-- Checks 1 to 7 of R279 on an access as a whole. -/
def State.early (s : State) (x : Access) (a : Word) : Option Cause :=
  if x.ord && s.me.blk.lr.ord && s.offPool a then some causeOrdered
  else match s.classify a x.size with
  | none => some causeBounds
  | some (cls, _) =>
    if a.toNat % x.align ≠ 0 then some causeAlign
    else if !x.spaces.testBit cls then some causeKind
    else if cls = 0 then s.me.ownCheck x (fld a 20 0) else none

/-- The trap of a stamped fault. -/
def Stamped.cause : Stamped → Option Cause
  | .ok _ => none
  | .age => some causeStampAge
  | .cls => some causeStampClass

/-- Accesses of one stamped word. -/
def stampRd : Access := { size := 8, align := 8, rd := true, wr := false, lock := some false, spaces := 0xF }
def stampWr : Access := { size := 8, align := 8, rd := false, wr := true, lock := some true, spaces := 0xF }
def stampRmw : Access := { size := 8, align := 8, rd := false, wr := true, lock := some true, spaces := 0x7 }

/-- A stamped load outside the own pool holds its context's issue until the word has landed and been decayed
(R416). -/
def holdLoad (u : VUnit) (before : State) : Act → Act
  | .done s => if before.cx.outs.length < s.cx.outs.length then
      .hold (.image ((s.cx.outs.getLast?).map (fun o => o.id) |>.getD 0) u.len []) s else .done s
  | a => a

/-- LDK (R417). -/
def execLdk (u : VUnit) (s : State) : Host.Outcome State Fault Refusal :=
  issue u (u.a :: regsM u) [] (fun s =>
    let a := s.addrM u
    holdLoad u s (s.load u stampRd 8 [(0, a)] [u.a] [] (.stamp u.a s.stepG a) (fun s got =>
      match stampRead (decayEntry s.me.vol.decayA) (gotNat got 0 8) s.stepG.toNat with
      | .ok v => .done (s.setG u.a (BitVec.ofNat 64 v))
      | f => .trap (f.cause.getD 0) a))) s

/-- Lanes of a stamped vector unit. -/
def State.lanes (s : State) (u : VUnit) : List Nat := (List.range 32).filter (fun i => s.lane u i)
/-- Address of lane i. -/
def laneAddr (a : Word) (i : Nat) : Word := a + BitVec.ofNat 64 (8 * i)

/-- The decayed lanes of VLDK, or the lowest lane that faults (R417). -/
def stampLanes (table : Nat → Nat → Nat) (g : Nat) (w : Nat → Nat) : List Nat → (List (Nat × Nat)) ⊕ (Nat × Cause)
  | [] => .inl []
  | i :: r => match stampRead table (w i) g with
    | .ok v => match stampLanes table g w r with
      | .inl l => .inl ((i, v) :: l)
      | e => e
    | f => .inr (i, f.cause.getD 0)

/-- The vector with the given lanes replaced. -/
def setLanes (old : Vec) (l : List (Nat × Nat)) : Vec :=
  vecMk 32 (fun i => match l.find? (fun e => e.1 == i) with | some e => e.2 | none => vecEl 32 old i)

/-- The 64-bit words of the lanes listed. -/
def laneWords (l : List (Nat × Nat)) (i : Nat) : Bool := l.any (fun e => e.1 / 2 == i)

/-- VLDK (R415, R417): the address is checked as an access of 256 bytes, then each enabled word. -/
def execVldk (u : VUnit) (s : State) : Host.Outcome State Fault Refusal :=
  issueLanes u (regsM u) [u.a] (fun s =>
    let a := s.addrM u
    let en := s.lanes u
    if en.isEmpty then .done s
    else match s.early { stampRd with size := 256 } a with
    | some c => .trap c a
    | none =>
      holdLoad u s (s.load u stampRd 8 (en.map (fun i => (8 * i, laneAddr a i))) [] [u.a] (.vstamp u.a s.stepG (s.mask u) a) (fun s got =>
        match stampLanes (decayEntry s.me.vol.decayA) s.stepG.toNat (fun i => gotNat got (8 * i) 8) en with
        | .inl l => .done (s.setVOn u.a (laneWords l) (setLanes (s.v u.a) l))
        | .inr (i, c) => .trap c (laneAddr a i)))) s

/-- STK (R418). -/
def execStk (u : VUnit) (s : State) : Host.Outcome State Fault Refusal :=
  issue u (u.a :: regsM u) [] (fun s =>
    let x := s.g u.a
    let vld := x.getLsbD 37
    if fld x 63 38 ≠ 0 ∨ (!vld ∧ fld x 36 0 ≠ 0) then s.illegal
    else
      let w := if vld then stampWord s.stepG.toNat (fld x 35 32) true (x.getLsbD 36) (fld x 31 0) else 0
      s.store u stampWr [(s.addrM u, leBytes 8 w)] plainWrite MemOp.write) s

/-- Apply stamped updates to the own pool: every word is checked before any is written (R416). -/
def stampWrites (f : Nat → Nat → Stamped) (t : Tile) (els : List (Nat × Nat)) : OwnWrite :=
  let news := els.map (fun e => (e.1, f (Mem.nat t.pool e.1 8) e.2))
  match news.find? (fun e => e.2.cause.isSome) with
  | some e => .bad (e.2.cause.getD 0) e.1
  | none => .ok (news.foldl (fun t e => match e.2 with | .ok v => t.poolWrite e.1 (leBytes 8 v) | _ => t) t)

/-- A stamp fault on the own pool names the word by the program's address. -/
def stampTra (a : Word) : Act → Act
  | .trap c t => if c = causeStampAge ∨ c = causeStampClass then .trap c (a + (t - BitVec.ofNat 64 (fld a 20 0))) else .trap c t
  | r => r

/-- ADK (R419). -/
def execAdk (u : VUnit) (s : State) : Host.Outcome State Fault Refusal :=
  issue u (u.a :: regsM u) [] (fun s =>
    let x := s.g u.a
    let a := s.addrM u
    let g := s.stepG
    let c := fld x 35 32
    if fld x 63 36 ≠ 0 then s.illegal
    else stampTra a (s.store u stampRmw [(a, 0, fld x 31 0)]
      (fun t els => stampWrites (fun w v => stampAdd (decayEntry t.vol.decayA) w v g.toNat c) t (els.map (fun e => (e.1, e.2.2))))
      (fun els => .stampAdd (els.map (fun e => (e.1, e.2.1, BitVec.ofNat 32 e.2.2))) (BitVec.ofNat 4 c) g))) s

/-- VADK (R419). -/
def execVadk (u : VUnit) (s : State) : Host.Outcome State Fault Refusal :=
  issueLanes u [u.b, u.c] [u.a] (fun s =>
    let y := s.g u.c
    let a := s.g u.b + u.io
    let g := s.stepG
    let c := fld y 3 0
    let en := s.lanes u
    if en.isEmpty then .done s
    else if fld y 63 4 ≠ 0 then s.illegal
    else match s.early { stampRmw with size := 256 } a with
    | some k => .trap k a
    | none => stampTra a (s.store u stampRmw (en.map (fun i => (laneAddr a i, 8 * i, vecEl 32 (s.v u.a) i)))
      (fun t els => stampWrites (fun w v => stampAdd (decayEntry t.vol.decayA) w v g.toNat c) t (els.map (fun e => (e.1, e.2.2))))
      (fun els => .stampAdd (els.map (fun e => (e.1, e.2.1, BitVec.ofNat 32 e.2.2))) (BitVec.ofNat 4 c) g))) s

/-- MRGK (R420). -/
def execMrgk (u : VUnit) (s : State) : Host.Outcome State Fault Refusal :=
  issue u (u.a :: regsM u) [] (fun s =>
    let a := s.addrM u
    let g := s.stepG
    stampTra a (s.store u stampRmw [(a, (s.g u.a).toNat)]
      (fun t els => stampWrites (fun w v => stampMerge (decayEntry t.vol.decayA) v w g.toNat) t els)
      (fun els => match els with
        | (pa, x) :: _ => .stampMerge pa (BitVec.ofNat 64 x) g
        | [] => .write []))) s

/-! ### Checkpoints and readings (R421 to R423) -/

/-- Does a core take checkpoint boundaries: a protected tile of a gang that does not replay (R421, R440)? -/
def State.protects (s : State) (core : Nat) : Bool :=
  isTile core && (s.tile core).blk.lr.gang.isSome && !(s.fen core).unprotected && (s.tile core).vol.replay.isNone

/-- A checkpoint boundary starts at a core (R400, R435): it stops issuing. While an earlier boundary still stages or commits, the
new one is owed and starts when that has ended; a boundary already triggered serves both. -/
def State.startBoundary (s : State) (core : Nat) : State :=
  if !s.protects core then s
  else match (s.tile core).vol.phase with
    | .none => s.modTile core fun t => (t.modVol fun v => { v with phase := .triggered, owed := false }).tally 0x0D t.blk.hold 1
    | .triggered => s
    | _ => s.modTile core fun t => t.modVol fun v => { v with owed := true }

/-- CKMK (R421). -/
def execCkmk (u : VUnit) (s : State) : Host.Outcome State Fault Refusal :=
  issue u [] [] (fun s => .done (s.startBoundary s.cur)) s

/-- An event code that counts cycles (R402): its reading is a free value. -/
def cycleEvent (sel : BitVec 16) : Bool := fld sel 15 8 == 1 || fld sel 15 8 == 4 || fld sel 15 8 == 5

/-- PERF (R402, R422): the record of its own reading counts after the counter has been read and cleared. -/
def execPerf (u : VUnit) (s : State) : Host.Outcome State Fault Refusal :=
  issue u [u.a, u.b] [] (fun s =>
    let x := s.g u.b
    let set := x.getLsbD 31
    let n := fld x 2 0
    if fld x 63 32 ≠ 0 ∨ fld x 29 21 ≠ 0 ∨ fld x 19 19 ≠ 0 ∨ fld x 7 3 ≠ 0 ∨ (!set ∧ (fld x 20 20 ≠ 0 ∨ fld x 18 16 ≠ 0 ∨ fld x 15 8 ≠ 0)) ∨
        (set ∧ (15 < fld x 15 8 ∨ (fld x 20 20 = 0 ∧ s.me.nctx ≤ fld x 18 16))) then s.illegal
    else
      let k := s.me.blk.ct
      let live := if cycleEvent (k.sels.toList.getD n 0) then Config.cycleCount s.fresh else k.pcs.toList.getD n 0
      let s := s.modMe fun t => t.modCt fun k => { k with
        pcs := k.pcs.set! n (if x.getLsbD 30 then 0 else live)
        sels := if set then k.sels.set! n (BitVec.ofNat 16 (fld x 15 8 * 256 + fld x 20 20 * 8 + fld x 18 16)) else k.sels }
      let (v, s) := s.reading (live.setWidth 64)
      .done (s.setG u.a v)) s

/-- SEQQ (R423). -/
def execSeqq (u : VUnit) (s : State) : Host.Outcome State Fault Refusal :=
  issue u [u.a, u.b] [] (fun s =>
    let w := s.g u.b
    let x := fld w 15 8
    let y := fld w 7 0
    if fld w 63 16 ≠ 0 ∨ 191 < x ∨ 159 < y then .trap causeBounds w
    else
      let recv := u.xbits 3 3 == 1
      let l := if recv then s.me.blk.ni.recv else s.me.blk.ni.send
      let v := match l.find? (fun e => e.peer == tileNo x y && e.cls == u.xbits 2 0) with
        | none => 0
        | some e => 2 ^ 63 + e.next.toNat * 2 ^ 24 + (if recv then 0 else e.una.toNat)
      let (v, s) := s.reading (BitVec.ofNat 64 v)
      .done (s.setG u.a v)) s

end Sys2Proof.Machine
end

