-- ==== Sys2Proof/Machine/Arrive.lean ====
section
/-! DEFINITION. Packets that reach a tile: order and duplicates (R261, R370), the log and the answers (R328, R438,
R439), admission (R307 to R311), notices (R377), accesses from other tiles (R233, R334) and their answers (R251, R293,
R343, R427), and results that land (R56, R149). An event that is not due changes nothing. -/

namespace Sys2Proof.Machine

/-! ### Packets in flight -/

/-- A packet by its identity. -/
def State.pkt? (s : State) (id : Nat) : Option Pkt := s.net.find? (fun p => p.id == id)
def State.dropPkt (s : State) (id : Nat) : State := { s with net := s.net.filter (fun p => p.id != id) }
def State.modPkt (s : State) (id : Nat) (f : Pkt → Pkt) : State :=
  { s with net := s.net.map (fun p => if p.id == id then f p else p) }

/-- The packet that an event names, arrived at an owner. -/
def State.arrival (s : State) (o : Owner) : Option Pkt :=
  match s.pkt? s.arg.i with
  | some p => if p.stage == .arrived && p.dst == o then some p else none
  | none => none

/-- Is a number the next of its channel, one already delivered, or one ahead of a gap (R261)? -/
inductive Turn where
  | now | dup | early
  deriving DecidableEq, Repr

def turnOf (next seq : Nat) : Turn :=
  let d := (seq + (2 ^ 24 - next % 2 ^ 24)) % 2 ^ 24
  if d = 0 then .now else if d < 2 ^ 23 then .early else .dup

/-- The number that a receive entry expects; 0 where the channel has none. -/
def recvNext (l : List Chan) (peer cls : Nat) : Nat :=
  match l.find? (fun e => e.peer == peer && e.cls == cls) with
  | some e => e.next.toNat
  | none => 0

/-- The receive table after a delivery; `none` where it has no place (R370). -/
def recvStep (l : List Chan) (peer cls : Nat) : Option (List Chan) :=
  if l.any (fun e => e.peer == peer && e.cls == cls) then
    some (l.map (fun e => if e.peer == peer && e.cls == cls then { e with next := e.next + 1 } else e))
  else if l.length < 128 then some (l ++ [{ peer := peer, cls := cls, next := 1, una := 0 }])
  else none

/-- No boundary stands between its trigger and its resume; one that is owed, while the last still commits, has been triggered (R435). -/
def Volatile.resumed (v : Volatile) : Bool := v.phase == .none || (v.phase == .committing && !v.owed)

/-- Bytes of a log's records (R438), and the number that asks for a boundary, 90% of the log (R400). -/
def logBytes (l : List LogRec) : Nat := l.foldl (fun n r => n + 16 + (r.data.length + 15) / 16 * 16) 0
def logLimit : Nat := 208 * 1024 * 9 / 10

/-- The log of a core takes no further arrival: the interval's records hold 90% of its bytes, until the cut (R435); or, with those of the
old interval that no commit has freed, the log has no room for a long message, so that it never overflows. -/
def State.logFull (s : State) (core : Nat) : Bool :=
  s.logs core && (decide (logLimit ≤ logBytes (s.fen core).log) || decide (208 * 1024 < logBytes ((s.fen core).oldLog ++ (s.fen core).log) + 144))

/-- The NI of a core admits packets now: not from a boundary's trigger to its resume, not stopped, and not while its log is full (R435,
R447). -/
def State.admits (s : State) (core : Nat) : Bool :=
  let v := (s.tile core).vol
  v.resumed && !v.failed && !v.switched && v.replay.isNone && !s.logFull core

/-- An answer to the sender of an arrival that made `s` of the state `before`: at once, or, where the tile logs, once the record is durable (R328, R439);
a tile under replay answers nothing. -/
def State.answerTo (s before : State) (core : Nat) (p : Pkt) (kind : LogKind) (ctx aux : Nat) (data : List Byte) (b : Body) : State :=
  if s.logs core then s.addEffect before core { s.record core kind ctx false data (some p) with aux := aux, answer := some b }
  else if (s.tile core).vol.replay.isSome then s
  else s.emit (.pool core) p.src 6 0 b 0 0 none

/-- Subtract a packet's bytes from the pending-byte counters that its mask names and blacken their colours (R397,
R399). -/
def SyncPart.receive (k : SyncPart) (p : Pkt) : SyncPart :=
  if p.bytes = 0 then k else { k.addBytes p.mask (-(p.bytes : Int)) with wcol := k.wcol ||| p.mask }

/-- A packet that has been delivered before is dropped and answered again (R261): as its newest record in the log says, once
that is durable; where the record has gone, a read or an atomic is answered with the result that the NI holds, or not at all (R293, R371,
R485), and every other packet is acknowledged. -/
def State.again (s : State) (core : Nat) (p : Pkt) : State :=
  let log := ((s.fen core).oldLog ++ (s.fen core).log).reverse
  let f := ((s.tile core).blk.ni.results.find? (fun e => e.1 == ownerCode p.src && e.2.1 == p.seq)).map (fun e => e.2.2.2)
  let s := s.dropPkt p.id
  let send := fun (b : Body) => s.emit (.pool core) p.src 6 0 b 0 0 none
  match log.find? (fun r => r.pkt.any (fun q => q.src == p.src && q.cls == p.cls && q.seq == p.seq)) with
  | some r => (match r.answer with | some b => if r.durable then send b else s | none => s)
  | none => match p.body with
    | .req r => (match r.op with
      | .read .. | .atomic .. => (match f with
        | some v => send (.reply v)
        | none => s)
      | _ => send (.reply { jrn := r.jrn, out := r.out, ctx := r.ctx, tsn := r.tsn, data := [], pop := none, refused := none, seq := r.seq }))
    | _ => send (.ack p.cls p.seq false)

/-- The next packet of a channel at a tile: a duplicate is dropped and acknowledged again, one ahead of a gap waits, one
without a place in the receive table is dropped; else it is delivered. -/
def State.deliver (s : State) (core : Nat) (p : Pkt) (f : State → State) : State :=
  if !s.admits core then s
  else
    let l := (s.tile core).blk.ni.recv
    match turnOf (recvNext l (ownerCode p.src) p.cls) p.seq with
    | .early => s
    | .dup => s.again core p
    | .now => match recvStep l (ownerCode p.src) p.cls with
      | none => s.dropPkt p.id
      | some l => f ((s.dropPkt p.id).modTile core fun t => t.modNi fun k => { k with recv := l })

/-! ### The brim comparator (R70, R224, R392, R399) -/

/-- A core acts on its own events now: it neither failed nor replays nor is stopped for a gang switch. -/
def State.alive (s : State) (core : Nat) : Bool :=
  let v := (s.tile core).vol
  !v.failed && !v.switched && v.replay.isNone
/-- No boundary holds the core's issue (R435). -/
def State.unheld (s : State) (core : Nat) : Bool := (s.tile core).vol.resumed

/-- Is the brim comparator due to fire (R392)? A launch without a deadline has no brim time (R67). -/
def State.brimDue (s : State) (core : Nat) : Bool :=
  let r := (s.tile core).blk.lr
  r.gang.isSome && r.started && !r.brimFired && r.dln != 0xFFFFFFFFFFFFFFFF && decide (r.brt.toNat ≤ (s.timeAt core).toNat) && s.alive core

/-- The brim comparator fires (R70): queued tasks and diverted SPAWN records are discarded and counted. -/
def Tile.fireBrim (t : Tile) : Tile :=
  let sl := t.fullSlots.filter (fun e => (t.slotHdr e.1 e.2).getLsbD 55)
  let n := t.vol.taskQ.length + sl.length
  let t := sl.foldl (fun t e => t.clearSlot e.1 e.2) t
  ((t.modVol fun v => { v with taskQ := [] }).modNi fun k => { k with rsc := k.rsc + BitVec.ofNat 32 n }).modLr fun r => { r with brimFired := true }

/-- The comparator fires: besides, probes of the launch end black (R399), and an exchange entry that has not started is cancelled
(R224), with it the boundaries before its exchange. -/
def State.fireBrim (s : State) (core : Nat) : State :=
  match (s.tile core).blk.lr.gang with
  | none => s
  | some g =>
    let cut := (s.tile core).blk.arr.mx.isSome
    let s := s.modTile core fun t => t.fireBrim.modArr fun a => { a with mx := none }
    let s := if cut then s.modCluster (clusterOf core) fun c => { c with pre := false } else s
    s.modGang g fun k => { k with probes := k.probes.map (fun (e : Nat × List Probe) => (e.1, e.2.map (fun p => { p with left := [], black := true }))) }

/-- The comparator fires if it is due, and the log says so. -/
def State.brimNow (s : State) (core : Nat) : State :=
  if s.brimDue core then (s.fireBrim core).logEffect s core .rsu 0 rsuBrim [] none else s

/-! ### Admission (R307 to R311) -/

/-- A context holds no task (R308). -/
def Ctx.noTask (c : Ctx) : Bool :=
  match c.run with
  | .idle | .ending _ | .stopped true => true
  | _ => false

/-- The first free divert slot of a context, and of any context from the lowest. -/
def Tile.freeSlot (t : Tile) (c : Nat) : Option (Nat × Nat) :=
  ((List.range t.blk.lr.dvs).find? (fun k => !(t.slotHdr c k).getLsbD 63)).map (fun k => (c, k))
def Tile.anySlot (t : Tile) : Option (Nat × Nat) := (List.range t.nctx).findSome? t.freeSlot

/-- Where an arriving message goes. -/
inductive Goes where
  | queue
  | slot (c k : Nat)
  /-- refused; the flag sets divert overflow -/
  | refuse (dov : Bool)
  deriving DecidableEq, Repr

def goesSlot : Option (Nat × Nat) → Goes
  | some (c, k) => .slot c k
  | none => .refuse true

/-- The table of R308 for classes 2 to 5. -/
def Tile.place (t : Tile) (m : Msg) : Goes :=
  if m.tcx ≠ 15 ∧ t.nctx ≤ m.tcx then .refuse false
  else if m.tcx ≠ 15 ∧ (t.ctx m.tcx).noTask then goesSlot (t.freeSlot m.tcx)
  else if 16 ≤ (t.vol.rq.filter (fun k => k.cls == m.cls)).length then
    goesSlot (if m.tcx = 15 then t.anySlot else t.freeSlot m.tcx)
  else .queue

/-- A SPAWN's place (R308). -/
def Tile.placeSpawn (t : Tile) : Goes := if t.vol.taskQ.length < 32 then .queue else goesSlot t.anySlot

/-- Write a message into a divert slot (R309): one pool write of header and payload, and the NI's index takes it (R313). -/
def Tile.writeSlot (t : Tile) (c k : Nat) (m : Msg) : Tile :=
  ((t.poolWrite (t.slotAddr c k) (leBytes 8 m.hdr.toNat ++ List.replicate 24 0 ++ m.payload)).slotKnown c k).modVol fun v =>
    { v with dix := v.dix ++ [{ ctx := c, slot := k, hdr := m.hdr }] }

/-- Put a numbered message where it goes; a refused one takes no number. -/
def Tile.takeMessage (t : Tile) (m : Msg) (g : Goes) : Tile :=
  let m := { m with anum := t.blk.ni.anum }
  let n := (t.modNi fun k => { k with anum := k.anum + 1 }).tally 0x09 m.tcx 1
  match g with
  | .queue => n.modVol fun v => if m.spawn then { v with taskQ := v.taskQ ++ [m] } else { v with rq := v.rq ++ [m] }
  | .slot c k => (n.writeSlot c k m).tally 0x0A c 1
  | .refuse dov => t.modNi fun k => { k with dov := k.dov || dov }

def Goes.refused : Goes → Bool
  | .refuse _ => true
  | _ => false

/-- The context that has become ready since the state `before`; the last where none has. -/
def State.woken (s before : State) (core : Nat) : Nat :=
  ((List.range 8).find? (fun c => !before.ready core c && s.ready core c)).getD 7

/-- A delivered class 2 to 5 message is placed or refused, its bytes counted, its arrival logged and answered. -/
def State.admitMsg (s : State) (core : Nat) (p : Pkt) (m : Msg) : State :=
  let g := (s.tile core).place m
  let t := s.modTile core fun t => (t.takeMessage m g).modSy fun k => k.receive p
  t.answerTo s core p .msg (if m.tcx < 8 then m.tcx else t.woken s core) 0 m.payload (.ack p.cls p.seq g.refused)

/-- A close marker frees the receive entry of its channel (R370), and the results of that channel's requests; it is acknowledged. It is
sent when every packet before it has been acknowledged, so one that is not the next of a channel is a copy of one taken before. -/
def State.takeMarker (s : State) (core : Nat) (p : Pkt) : State :=
  let peer := ownerCode p.src
  let l := (s.tile core).blk.ni.recv
  if !s.admits core then s
  else if l.any (fun e => e.peer == peer && e.cls == p.cls) && recvNext l peer p.cls == p.seq then
    let t := (s.dropPkt p.id).modTile core fun t => t.modNi fun k =>
      { k with recv := k.recv.filter (fun e => !(e.peer == peer && e.cls == p.cls)), results := if p.cls = 6 then k.results.filter (fun e => e.1 != peer) else k.results }
    t.answerTo s core p .rsu 0 rsuClose [] (.ack p.cls p.seq false)
  else s.again core p

/-- MESSAGE_ADMISSION (R261, R307, R308, R311): packet `i` at tile `n`; also a close marker, which frees the receive
entry (R370). -/
def execMessageAdmission (s : State) : Host.Outcome State Fault Refusal :=
  let core := s.arg.n
  .next (match s.arrival (.pool core) with
  | none => s
  | some p => match p.body with
    | .msg m => if m.spawn then s else s.deliver core p (fun s => s.admitMsg core p m)
    | .close _ => s.takeMarker core p
    | _ => s)

/-- A delivered SPAWN (R52, R70, R308, R401): after brim time it is discarded, acknowledged and counted. -/
def State.admitSpawn (s : State) (core : Nat) (p : Pkt) (m : Msg) : State :=
  let t := s.tile core
  if t.blk.lr.brimFired then
    (s.modTile core fun t => (t.modNi fun k => { k with rsc := k.rsc + 1, spc := k.spc - 1 }).modSy fun k => k.receive p).answerTo s
      core p .msg 0 0 m.payload (.ack p.cls p.seq false)
  else
    let g := t.placeSpawn
    (s.modTile core fun t => ((t.takeMessage m g).modSy fun k => k.receive p).modNi fun k =>
      { k with spc := if g.refused then k.spc else k.spc - 1 }).answerTo s core p .msg 0 0 m.payload (.ack p.cls p.seq g.refused)

/-- A SPAWN is delivered to the NI. -/
def State.spawnArrives (s : State) : State :=
  let core := s.arg.n
  match s.arrival (.pool core) with
  | none => s
  | some p => match p.body with
    | .msg m => if m.spawn then s.deliver core p (fun s => s.admitSpawn core p m) else s
    | _ => s

/-- SPAWN_ADMISSION (R52, R308): packet `i` at tile `n`, whose brim comparator fires first where it is due (R392). -/
def execSpawnAdmission (s : State) : Host.Outcome State Fault Refusal := .next (s.brimNow s.arg.n).spawnArrives

/-! ### Waking a context -/

/-- A parked context goes on with the unit after PARK (R169). -/
def Ctx.unpark (c : Ctx) : Ctx :=
  match c.run with
  | .waiting (.park _ len) => { c with run := .ready, pc := c.pc + BitVec.ofNat 64 len }
  | _ => c

/-- A context that a fatal path or the stop at D has ended. -/
def Ctx.killed (c : Ctx) : Bool :=
  match c.run with
  | .stopped _ => true
  | _ => false

/-- Apply a notice to its context (R377); one for a context that has been killed, or whose upcall is gone (R69, R429), is dropped. -/
def Tile.applyNotice (t : Tile) (asid gen : Nat) (n : Notice) : Tile :=
  let c := t.ctx n.ctx
  if n.asid.toNat = asid ∧ n.gen.toNat = gen ∧ fld c.ups 31 16 = n.tag.toNat ∧ c.ans = 0 ∧ !c.upGone ∧ !c.killed then
    t.modCtx n.ctx fun c => { c with ups := setFld c.ups 15 8 n.ans.toNat }.unpark
  else t

/-- The payload of a notice's record: tag, answer, ASID and generation. -/
def Notice.bytes (n : Notice) : List Byte :=
  leBytes 2 n.tag.toNat ++ leBytes 2 n.ans.toNat ++ leBytes 2 n.asid.toNat ++ leBytes 2 n.gen.toNat ++ List.replicate 24 0

/-- The NI applies the oldest notice of a tile's class 1 queue (R377), and the log says so (entry 21). -/
def State.takeNotice (s : State) (core : Nat) : State :=
  match (s.tile core).vol.notices with
  | [] => s
  | n :: r =>
    let (asid, gen) := s.asidGen core
    (s.modTile core fun t => (t.modVol fun v => { v with notices := r }).applyNotice asid gen n).logEffect s core .rsu (n.ctx % 8) rsuNotice [] none

/-- PAGE_ANSWER_NOTICE (R313, R377): with `b` clear, packet `i` enters the class 1 queue of tile `n`; with `b` set, the
oldest notice of the queue is applied. A notice that finds 8 in the queue waits at ingress (R303 diverts only classes 2 to 5 and SPAWN, and
gives class 1 notices no rule: DESIGN CHOICE, entry 68). -/
def execPageAnswerNotice (s : State) : Host.Outcome State Fault Refusal :=
  let core := s.arg.n
  .next (if s.arg.b then (if s.alive core then s.takeNotice core else s)
  else match s.arrival (.pool core) with
    | none => s
    | some p => match p.body with
      | .notice n =>
        if 8 ≤ (s.tile core).vol.notices.length then s
        else s.deliver core p fun s =>
          (s.modTile core fun t => ((t.modVol fun v => { v with notices := v.notices ++ [{ n with anum := t.blk.ni.anum }] }).modNi fun k => { k with anum := k.anum + 1 }).tally 0x09 n.ctx 1).answerTo
            s core p .msg (n.ctx % 8) 0 n.bytes (.ack p.cls p.seq false)
      | _ => s)

/-! ### Accesses from other tiles (R233, R263, R334) -/

/-- A place of the target's pool is refused to an arriving access (R233, R263). -/
def Tile.refuses (t : Tile) (write : Bool) (off size : Nat) : Bool :=
  off < t.blk.lr.xb.toNat || t.abase < off + size || t.unbind.lockHit write off size

/-- What an owner's memory answers to one element of an operation. -/
structure Served where
  data : List (Nat × Byte) := []
  refused : Option (BitVec 8 × Word) := none
  deriving DecidableEq, Repr

def bytesAt (place : Nat) (bs : List Byte) : List (Nat × Byte) := (List.range bs.length).zip bs |>.map (fun e => (place + e.1, e.2))

/-- The effect of an atomic on a memory: its old word and the memory after. -/
def memAtomic (m : Mem) (op : AtomOp) (w32 : Bool) (a : Nat) (x y : Word) : Nat × Mem :=
  let n := if w32 then 4 else 8
  let old := Mem.nat m a n
  (old, match atomNew op (8 * n) old (x.toNat % 2 ^ (8 * n)) (y.toNat % 2 ^ (8 * n)) with
    | some v => Mem.write m a (leBytes n v)
    | none => m)

/-- New stamped words at an owner (R416): each word, given by its address, its place in the unit and its operand, is
applied or refused on its own; the first refused word's cause and place. -/
def stampNews (f : Nat → Nat → Stamped) (m : Mem) (els : List (Nat × Nat × Nat)) : List (Nat × Nat) × Option (Cause × Nat) :=
  let news := els.map (fun e => (e.1, e.2.1, f (Mem.nat m e.1 8) e.2.2))
  (news.filterMap (fun e => match e.2.2 with | .ok v => some (e.1, v) | _ => none),
    (news.find? (fun e => e.2.2.cause.isSome)).map (fun e => (e.2.2.cause.getD 0, e.2.1)))

/-- The refusal of stamped words (R416): TRA is the address of the lowest word refused. -/
def stampRefused (r : Req) (els : List (Nat × Nat × Nat)) (no : Option (Cause × Nat)) : Served :=
  { refused := no.map (fun e => (BitVec.ofNat 8 e.1, r.addr + BitVec.ofNat 64 (e.2 - (els.head?.map (fun x => x.2.1)).getD e.2))) }

/-- An arriving request at a pool (R233): its answer and the tile after. -/
def Tile.serve (t : Tile) (r : Req) : Served × Tile :=
  let no := fun (c : Cause) => (({ refused := some (BitVec.ofNat 8 c, r.addr) } : Served), t)
  let stamped := fun (els : List (Nat × Nat × Nat)) (f : Nat → Nat → Stamped) =>
    if els.any (fun e => t.refuses true e.1 8) then no causePosted
    else
      let (l, bad) := stampNews f t.pool els
      (stampRefused r els bad, l.foldl (fun t e => t.poolWrite e.1 (leBytes 8 e.2)) t)
  match r.op with
  | .read els z =>
    if els.any (fun e => t.refuses false e.1 z) then no causeLoad
    else ({ data := els.flatMap (fun e => bytesAt e.2 (Mem.bytes t.pool e.1 z)) }, t)
  | .write els =>
    if els.any (fun e => t.refuses true e.1 e.2.length) then no causePosted
    else ({}, els.foldl (fun t e => t.poolWrite e.1 e.2) t)
  | .atomic op w32 a x y =>
    let n := if w32 then 4 else 8
    if t.refuses true a n then no causeLoad
    else
      let (old, _) := memAtomic t.pool op w32 a x y
      ({ data := bytesAt 0 (leBytes n old) },
        match atomNew op (8 * n) old (x.toNat % 2 ^ (8 * n)) (y.toNat % 2 ^ (8 * n)) with
        | some v => t.poolWrite a (leBytes n v)
        | none => t)
  | .stampAdd els cls g => stamped (els.map (fun e => (e.1, e.2.1, e.2.2.toNat))) (fun w v => stampAdd (decayEntry t.vol.decayA) w v g.toNat cls.toNat)
  | .stampMerge a u g => stamped [(a, 0, u.toNat)] (fun w v => stampMerge (decayEntry t.vol.decayA) v w g.toNat)
  | _ => no causePosted

/-- Does an operation only read? -/
def MemOp.reads : MemOp → Bool
  | .read _ _ => true
  | _ => false

/-- The reply to a request. -/
def Req.reply (r : Req) (v : Served) (pop : Option (Word × Vec)) : Reply :=
  { jrn := r.jrn, out := r.out, ctx := r.ctx, tsn := r.tsn, data := v.data, pop := pop, refused := v.refused, seq := r.seq }

/-- The operands that a request brings, as its log record keeps them (R438). -/
def MemOp.payload : MemOp → List Byte
  | .write els => els.flatMap (fun e => e.2)
  | .atomic op w32 _ x y => let n := if w32 then 4 else 8; leBytes n x.toNat ++ (if op = .cas then leBytes n y.toNat else [])
  | .stampAdd els _ _ => els.flatMap (fun e => leBytes 4 e.2.2.toNat)
  | .stampMerge _ u _ => leBytes 8 u.toNat
  | _ => []

/-- The first pool offset that a request names. -/
def MemOp.first : MemOp → Nat
  | .read els _ => (els.head?.map (fun e => e.1)).getD 0
  | .write els => (els.head?.map (fun e => e.1)).getD 0
  | .atomic _ _ a _ _ => a
  | .stampAdd els _ _ => (els.head?.map (fun e => e.1)).getD 0
  | .stampMerge a _ _ => a
  | _ => 0

/-- Results that an NI keeps of each source (R293, R485): as many reads and atomics as it may have outstanding, 32 and 8 (R282), and as many
lines as its copy queue has places (entry 69). -/
def keepResult (l : List (Nat × Nat × Bool × Reply)) (src seq : Nat) (line : Bool) (r : Reply) : List (Nat × Nat × Bool × Reply) :=
  let l := l ++ [(src, seq, line, r)]
  let mine := fun (e : Nat × Nat × Bool × Reply) => e.1 == src && e.2.2.1 == line
  if (l.filter mine).length ≤ (if line then 16 else 40) then l else l.eraseP mine

/-- REMOTE_POOL_ACCESS (R233, R263, R334): packet `i`, a request or an XSEND write, at tile `n`. It changes the receive table, and so
the log has a record of a read too (entry 21). -/
def execRemotePoolAccess (s : State) : Host.Outcome State Fault Refusal :=
  let core := s.arg.n
  .next (match s.arrival (.pool core) with
  | none => s
  | some p => match p.body with
    | .req r => s.deliver core p fun s =>
        let (v, t) := (s.tile core).serve r
        let a := r.reply v none
        let value := match r.op with | .read .. | .atomic .. => true | _ => false
        (s.modTile core fun _ => if value then t.modNi fun k => { k with results := keepResult k.results (ownerCode p.src) r.seq r.line.isSome a } else t).answerTo s
          core p (if r.op.reads then .rsu else if value then .atm else .wrt) 0 (if r.op.reads then rsuRead else r.op.first / 32) r.op.payload (.reply a)
    | .xwrite off bytes _ _ => s.deliver core p fun s =>
        let no := (s.tile core).refuses true off bytes.length
        (s.modTile core fun t => (if no then t else t.poolWrite off bytes).modSy fun k => k.receive p).answerTo s
          core p .wrt 0 (off / 32) bytes (.ack p.cls p.seq no)
    | _ => s)

/-! ### Answers at the sender (R251, R328, R343, R427) -/

/-- The request that a reply answers: of this owner and number (R370). -/
def State.reqOf (s : State) (core : Nat) (o : Owner) (r : Reply) : Option Req :=
  (s.tile core).blk.ni.reqs.find? (fun q => q.owner == o && q.seq == r.seq)

/-- The lowest unacknowledged number of a channel from its numbers outstanding. -/
def lowest (una next : Nat) (l : List Nat) : Nat :=
  match l with
  | [] => next
  | _ => una + (l.map (fun n => (n + (2 ^ 24 - una % 2 ^ 24)) % 2 ^ 24)).foldl min (2 ^ 24)

/-- Send entries after acknowledgements: the lowest number of each channel still outstanding (R370). -/
def NiPart.settle (k : NiPart) : NiPart :=
  { k with send := k.send.map (fun e =>
      let out := (k.reqs.filter (fun q => e.cls == 6 && ownerCode q.owner == e.peer)).map (fun q => q.seq) ++
        (k.rtx.filter (fun p => p.cls == e.cls && ownerCode p.dst == e.peer)).map (fun p => p.seq)
      { e with una := BitVec.ofNat 24 (lowest e.una.toNat e.next.toNat out) }) }

/-- A refusal of an operation of a context joins its pending list, or is counted as lost (R427). -/
def State.refusal (s : State) (core c : Nat) (tsn : BitVec 16) (cause : BitVec 8) (tra : Word) (jix : Option (BitVec 6)) : State :=
  s.modTile core fun t =>
    let x := t.ctx c
    if x.tsn = tsn ∧ x.apnd.length < 4 then t.modCtx c fun k => { k with apnd := k.apnd ++ [{ cause := cause, tra := tra, jix := jix }] }
    else t.modNi fun k => { k with lrc := k.lrc + 1 }

/-- Is a refusal a stamp fault (R416, R426)? -/
def stampCause (c : BitVec 8) : Bool := c == 0x14 || c == 0x15

/-- Of two refusals of one unit's parts the first stands; of two stamp faults the one of the lower word (R416). -/
def lowerRefusal (x y : Option (BitVec 8 × Word)) : Option (BitVec 8 × Word) :=
  match x, y with
  | some a, some b => some (if stampCause a.1 && stampCause b.1 && decide (b.2.toNat < a.2.toNat) then b else a)
  | _, _ => x.or y

/-- One part of a journal entry is answered; the entry leaves when none is left, unless a result keeps it (R251,
R290, R293), and its refusal is then reported. -/
def State.journalPart (s : State) (core id : Nat) (no : Option (BitVec 8 × Word)) : State :=
  match (s.tile core).blk.ni.journal.find? (fun e => e.id == id) with
  | none => s
  | some e =>
    let e := { e with parts := e.parts - 1, refused := lowerRefusal e.refused no }
    if e.parts = 0 ∧ e.out = none then
      let s := s.modTile core fun t => t.modNi fun k => { k with journal := k.journal.filter (fun q => q.id != id) }
      match e.refused with
      | some (c, a) => s.refusal core e.ctx e.tsn c a (some e.idx)
      | none => s
    else s.modTile core fun t => t.modNi fun k => { k with journal := k.journal.map (fun q => if q.id == id then e else q) }

/-- A request is answered: it leaves the list kept for retransmission. -/
def State.dropReq (s : State) (core id : Nat) : State :=
  s.modTile core fun t => t.modNi fun k => { k with reqs := k.reqs.filter (fun q => q.id != id) }.settle

/-- A reply packet that arrived at core `n`, with its request; a reply to no request is dropped (R440). -/
def State.replyAt (s : State) (core : Nat) (f : State → Pkt → Reply → Req → State) : State :=
  match s.arrival (.pool core) with
  | none => s
  | some p => match p.body with
    | .reply r => match s.reqOf core p.src r with
      | none => if r.refused.isSome then s else s.dropPkt p.id
      | some q => f s p r q
    | _ => s

/-- Does a core take answers now? -/
def State.takes (s : State) (core : Nat) : Bool := s.admits core

/-- A DCLS whose 24 slices have all acknowledged is over (R387). -/
def Tile.slicesDone (t : Tile) (c : Nat) : Tile :=
  if t.blk.ni.reqs.any (fun r => match r.op with | .decay .. => true | _ => false) then t
  else t.modCtx c fun x => match x.run with
    | .waiting (.slices len) => { x with run := .ready, pc := x.pc + BitVec.ofNat 64 len }
    | _ => x

/-- JOURNAL_ACKNOWLEDGEMENT (R251, R387): reply packet `i`, not refused, for a journal entry without a result, or for a decay
entry, at core `n`. -/
def execJournalAcknowledgement (s : State) : Host.Outcome State Fault Refusal :=
  let core := s.arg.n
  .next (if !s.takes core then s else s.replyAt core fun s p r q =>
    if r.refused.isSome || q.out.isSome || q.line.isSome then s
    else
      let t := (s.dropPkt p.id).dropReq core q.id
      match q.jrn with
      | none => (match q.op with
        | .decay .. => t.modTile core fun x => x.slicesDone q.ctx
        | _ => s)
      | some j => (t.journalPart core j none).logEffect s core .ack q.ctx 0 [] (some p))

/-- The operand of a refused message's trap: the destination's space 01 address (R311, R334). -/
def Pkt.tra (p : Pkt) : Word :=
  let at_ := fun (t off : Nat) => BitVec.ofNat 64 (2 ^ 62 + tileX t * 2 ^ 32 + tileY t * 2 ^ 24 + off)
  match p.dst, p.body with
  | .pool t, .xwrite off _ _ _ => at_ t off
  | .pool t, _ => at_ t 0
  | _, _ => 0

/-- Context and task serial that a sent packet belongs to. -/
def Body.owner : Body → Option (Nat × BitVec 16)
  | .msg m => some (m.ctx, m.tsn)
  | .xwrite _ _ c n => some (c, n)
  | _ => none

/-- Contexts whose wait for a place in the retransmission buffer has ended since a state `before`: a record each (R438, a limit freed). -/
def State.freedRtx (s before : State) (core : Nat) : State :=
  (List.range 8).foldl (fun s c => match ((before.tile core).ctx c).run with
    | .waiting (.rtx n) =>
      if !before.ready core c && s.ready core c then s.addRecord core { s.record core .rsu c true [] none with aux := rsuRtx, seq := n } else s
    | _ => s) s

/-- An acknowledgement of a class 1 to 5 message frees its retransmission-buffer entry (R328): the entry, and the state
after. That of a message without a refusal is not logged (24_prog_pipeline.md), only the end of a wait for the place. -/
def State.ackAt (s : State) (core : Nat) (p : Pkt) (cls seq : Nat) (refused : Bool) : Option Pkt × State :=
  let k := (s.tile core).blk.ni
  let mine := fun (q : Pkt) => q.dst == p.src && q.cls == cls && q.seq == seq
  match k.rtx.find? mine with
  | none => (none, s.dropPkt p.id)
  | some q =>
    let t := (s.dropPkt p.id).modTile core fun t => t.modNi fun k => { k with rtx := k.rtx.filter (fun e => !mine e) }.settle
    let plain := match q.body with | .msg _ => !refused | _ => false
    let t := if plain then t else t.logEffect s core .ack ((q.body.owner.map (fun e => e.1)).getD 0) 0 (if refused then [BitVec.ofNat 8 causeMessage] else []) (some p)
    (some q, t.freedRtx s core)

/-- MESSAGE_ACKNOWLEDGEMENT (R328): packet `i`, an acknowledgement without a refusal, at core `n`. -/
def execMessageAcknowledgement (s : State) : Host.Outcome State Fault Refusal :=
  let core := s.arg.n
  .next (match s.arrival (.pool core) with
  | some p => match p.body with
    | .ack cls seq false => if s.takes core then (s.ackAt core p cls seq false).2 else s
    | _ => s
  | none => s)

/-- Zeros in place of the bytes that a refused request would have brought (R233). -/
def MemOp.zeros : MemOp → List (Nat × Byte)
  | .read els z => els.flatMap (fun e => bytesAt e.2 (List.replicate z 0))
  | _ => []

/-- An outstanding result gets bytes, or zeros where its part was refused; the refusal is kept until it lands (R233). -/
def Outs.part (o : Outs) (r : Reply) : Outs :=
  let o := { o with need := o.need - 1, got := o.got ++ r.data, refused := match lowerRefusal (o.refused.map (fun (e : (BitVec 8 × Word) × BitVec 16) => e.1)) r.refused with
    | some e => some (e, r.tsn)
    | none => none }
  match r.pop.or (if r.refused.isSome then some (0, 0) else none), o.gs, o.vs with
  | some (w, v), [g], [x] => { o with how := .fixed [(g, w)] (some (x, v, BitVec.allOnes 128)) }
  | _, _, _ => o

def State.modOuts (s : State) (core c id : Nat) (f : Outs → Outs) : State :=
  s.modTile core fun t => t.modCtx c fun x => { x with outs := x.outs.map (fun o => if o.id == id then f o else o) }

/-- POP_ACKNOWLEDGEMENT (R343): one window credit of the queue returns to core `n`. -/
def execPopAcknowledgement (s : State) : Host.Outcome State Fault Refusal :=
  let core := s.arg.n
  .next (if !s.takes core then s else match s.arrival (.pool core) with
  | some p => match p.body with
    | .popAck q => ((s.dropPkt p.id).modTile core fun t => t.modNi fun k =>
        { k with win := k.win.map (fun e => if e.2 != 0 && e.1.toNat == q then (e.1, e.2 - 1) else e) }).logEffect s core .ack 0 0 [] (some p)
    | _ => s
  | none => s)

/-- OPTIMISER_COMPLETION_NOTICE (R343): the pushing context's OCNT falls by one. -/
def execOptimiserCompletionNotice (s : State) : Host.Outcome State Fault Refusal :=
  let core := s.arg.n
  .next (if !s.takes core then s else match s.arrival (.pool core) with
  | some p => match p.body with
    | .optDone c _ _ => ((s.dropPkt p.id).modTile core fun t => t.modCtx c fun x => { x with ocnt := x.ocnt - 1 }).logEffect s core .ack (c % 8) 0 [] (some p)
    | _ => s
  | none => s)

/-- Issue passes on from the context of a core that holds it (R55). -/
def State.passOn (s : State) (core : Nat) : State := { ({ s with cur := core }).pass with cur := s.cur }

/-- Deliver the oldest pending asynchronous trap of a context (R427, R148): JIX names the journal entry, and issue passes on
(R55). -/
def State.deliverAsync (s : State) (core c : Nat) : State :=
  let t := s.tile core
  let x := t.ctx c
  match x.apnd with
  | [] => s
  | e :: r =>
    let s := s.modTile core fun t => (t.modLr fun l => match e.jix with
      | some j => { l with jix := BitVec.ofNat 64 (2 ^ 63 + j.toNat) }
      | none => l).modCtx c fun k => { k with apnd := r }
    let h := t.handler core x e.cause.toNat
    (if h = 0 then s.takeFatal core c e.cause.toNat e.tra
    else if isTile core then s.modTile core fun t => t.modCtx c fun k => k.enter e.cause.toNat e.tra h true
    else s.modTile core fun t => t.modCtx c fun k => k.enterSupervisor e.cause.toNat).passOn core

/-- A context may take an asynchronous trap at this boundary (R427). -/
def Ctx.asyncDue (c : Ctx) : Bool :=
  !c.nest && !c.apnd.isEmpty && (match c.run with | .ready | .stalled | .waiting _ => true | _ => false)

/-- ASYNC_TRAP_DELIVERY (R427): at core `n`, to the context that holds issue. -/
def execAsyncTrapDelivery (s : State) : Host.Outcome State Fault Refusal :=
  let core := s.arg.n
  let t := s.tile core
  .next (if (t.ctx t.blk.hold).asyncDue && !t.vol.halted && !t.vol.failed && !t.vol.switched && s.unheld core then
    s.deliverAsync core t.blk.hold else s)

/-! ### Results that land (R56, R149, R293, R385, R416) -/

/-- Write a general register unless a diversion took it over, or the task has ended. -/
def Ctx.land (c : Ctx) (o : Outs) (r : RegNo) (v : Word) : Ctx :=
  if o.dropped.contains r then c else c.wg r v

/-- A context discards a result that lands in a register: every one once it has stopped (R72, R428); after DONE or BRIMX all but copy and
Heron tokens, which their operations write (R53, R497). -/
def Ctx.discards (c : Ctx) (o : Outs) : Bool :=
  match c.run with
  | .idle | .stopped _ => true
  | .ending _ => o.kind != .copy && o.kind != .heron
  | _ => false

/-- Land bytes of a vector register by a mask. -/
def landVec (old new : Vec) (mask : BitVec 128) : Vec := vecMk 8 (fun i => if mask.getLsbD i then vecEl 8 new i else vecEl 8 old i)

/-- The wait for an image is over: the next unit follows, once what a switch marker still waits for has landed (R55). -/
def Ctx.imageDone (c : Ctx) (id : Nat) : Ctx :=
  match c.run with
  | .waiting (.image k len also) =>
    let left := also.filter (fun i => c.outs.any (fun o => o.id == i))
    if k = id then { c with pc := c.pc + BitVec.ofNat 64 len, run := if left.isEmpty then .ready else .waiting (.results left) } else c
  | _ => c

/-- The gang step that the step unit holds for a core (R414). -/
def State.gangStep (s : State) (core : Nat) : Word :=
  match (s.tile core).blk.lr.gang with
  | none => Config.freeWord s.fresh
  | some g => match s.gang? g with
    | none => Config.freeWord s.fresh
    | some k => k.gst

/-- A schedule image is one-to-one (R367): 256 bytes, each 16q + g, no two alike. -/
def scheduleOk (l : List Nat) : Bool := l.length == 256 && decide l.Nodup

/-- A schedule is installed whole, with every position's row of it (R367, R385). -/
def State.installSchedule (s : State) (k n : Nat) (l : List Nat) : State :=
  let s := s.modCluster k fun c => { c with
    sched := c.sched.filter (fun e => e.1 / 256 != n) ++ ((List.range 256).zip l).map (fun e => (256 * n + e.1, e.2)) }
  (List.range 16).foldl (fun s p => s.modTile (tileAt k p) fun t => t.modArr fun a => { a with
    rows := a.rows.filter (fun e => e.1 / 16 != n) ++ (List.range 16).map (fun f => (16 * n + f, l.getD (16 * p + f) 0)) }) s

/-- The entries of the matrix-operand TLB that these outstanding results pin are pinned no longer (R361). -/
def State.unpin (s : State) (k : Nat) (ids : List Nat) : State :=
  s.modCluster k fun c => { c with mtlb := { c.mtlb with pins := c.mtlb.pins.filter (fun e => !ids.contains e.2) } }
/-- A core's outstanding results are gone, and with them its pins. -/
def State.unpinAll (s : State) (core : Nat) : State :=
  s.unpin (homeCluster core) ((s.tile core).blk.cx.toList.flatMap (fun c => c.outs.map (fun o => o.id)))

/-- A stamp fault of a landing: the precise trap of the unit that waits (R416), unless its context has gone on. -/
def State.landTrap (s : State) (core c id : Nat) (cause : Cause) (tra : Word) : State :=
  match ((s.tile core).ctx c).run with
  | .waiting (.image k _ _) => if k = id then s.takeTrap core c cause tra else s
  | _ => s

/-- The value of an outstanding result is written (R149), its context discarding or not. -/
def State.landValue (s : State) (core c : Nat) (o : Outs) : State :=
  let put := fun (f : Ctx → Ctx) => s.modTile core fun t => t.modCtx c f
  let done := fun (s : State) => s.modTile core fun t => t.modCtx c fun x => x.imageDone o.id
  let table := decayEntry (s.tile core).vol.decayA
  match o.how with
  | .schedule n a =>
    let l := (List.range 256).map (fun i => gotNat o.got i 1)
    let s := s.unpin (clusterOf core) [o.id]
    if scheduleOk l then done (s.installSchedule (clusterOf core) n l) else s.landTrap core c o.id causeArray a
  | _ =>
  if ((s.tile core).ctx c).discards o then s
  else match o.how with
  | .scalar r n sign => put (fun x => x.land o r (scalarWord n sign (gotNat o.got 0 n)))
  | .vec r => s.modTile core fun t => t.wvOn c r (gotWords o.got) (vecGot (t.rv c r) o.got)
  | .stamp r g a => (match stampRead table (gotNat o.got 0 8) g.toNat with
      | .ok v => done (put (fun x => x.land o r (BitVec.ofNat 64 v)))
      | f => s.landTrap core c o.id (f.cause.getD 0) a)
  | .vstamp r g lanes a => (match stampLanes table g.toNat (fun i => gotNat o.got (8 * i) 8) ((List.range 32).filter (fun i => lanes.getLsbD i)) with
      | .inl l => done (s.modTile core fun t => t.wvOn c r (laneWords l) (setLanes (t.rv c r) l))
      | .inr (i, k) => s.landTrap core c o.id k (laneAddr a i))
  | .fixed gs v =>
    let s := put (fun x => gs.foldl (fun x e => x.land o e.1 e.2) x)
    (match v with
    | some (r, w, m) => s.modTile core fun t => t.wvOn c r (wordsOf 8 (fun i => m.getLsbD i)) (landVec (t.rv c r) w m)
    | none => s)
  | .gst r => put (fun x => x.land o r (s.gangStep core))
  | .schedule _ _ | .probe _ => s

/-- The lock of a pool-form RECV clears with its result (R329). -/
def EnginePart.clearRecv (e : EnginePart) (k : Nat) : EnginePart :=
  match e.locks.toList.getD k none with
  | some l => if l.src = 38 then { e with locks := e.locks.set! k none } else e
  | none => e

/-- A complete outstanding result lands: its value, its lock, and the journal entry that it kept; then the refusal of a part of it
is raised, once for the operation (R233). -/
def State.land (s : State) (core c : Nat) (o : Outs) : State :=
  let s := (s.modTile core fun t => t.modCtx c fun x => { x with outs := x.outs.filter (fun k => k.id != o.id) }).landValue core c o
  let s := s.modTile core fun t =>
    let t := match o.lock with | some k => t.modEn fun e => e.clearRecv k | none => t
    t.modNi fun k => { k with journal := k.journal.filter (fun e => e.out != some o.id) }
  match o.refused with
  | some ((k, a), n) => s.refusal core c n k a none
  | none => s

/-- May a complete result land? A schedule is not installed while an exchange names it (R385). -/
def State.landsNow (s : State) (core : Nat) (o : Outs) : Bool :=
  o.need == 0 && (match o.how with | .schedule n _ => !s.scheduleBusy core n | _ => true)

/-- Land a result if all its parts are there. -/
def State.landIf (s : State) (core c id : Nat) : State :=
  match ((s.tile core).ctx c).outs.find? (fun o => o.id == id) with
  | some o => if s.landsNow core o then s.land core c o else s
  | none => s

/-- The bytes of a result that a request reads from stable pages (R239), by their place. -/
def Req.fromStable (q : Req) (i : Nat) : Bool :=
  match q.op with
  | .read els z => els.any (fun e => q.stable.contains e.1 && decide (e.2 ≤ i) && decide (i < e.2 + z))
  | _ => false
/-- Every element comes from a stable page. -/
def Req.allStable (q : Req) : Bool :=
  match q.op with
  | .read els _ => !els.isEmpty && els.all (fun e => q.stable.contains e.1)
  | _ => false

/-- A reply with data is taken in and logged (R438), what comes from stable pages without its data (R239); the result lands when it is
complete. -/
def State.takeReply (s : State) (core : Nat) (p : Pkt) (r : Reply) (q : Req) : State :=
  match q.out with
  | none => s
  | some id =>
    let reg := ((((s.tile core).ctx q.ctx).outs.find? (fun o => o.id == id)).bind (fun o => (o.gs ++ o.vs).head?)).getD 0
    let kept := { r with data := r.data.filter (fun e => !q.fromStable e.1) }
    let data := match r.pop with | some (w, v) => leBytes 8 w.toNat ++ vecBytes v | none => kept.data.map (fun e => e.2)
    ((((s.dropPkt p.id).dropReq core q.id).modOuts core q.ctx id (fun o => o.part r)).landIf core q.ctx id).addEffect s core
      (if q.allStable then { s.record core .spr q.ctx false [] none with seq := q.seq, src := ownerCode q.owner, aux := reg.toNat }
      else { s.record core .rsp q.ctx false data (some { p with body := .reply kept }) with aux := reg.toNat })

/-- REFUSAL_RECEIPT (R233, R311, R427): a refused reply or acknowledgement, packet `i`, at core `n`. -/
def execRefusalReceipt (s : State) : Host.Outcome State Fault Refusal :=
  let core := s.arg.n
  .next (if !s.takes core then s else match s.arrival (.pool core) with
  | none => s
  | some p => match p.body with
    | .ack cls seq true =>
      let (q, s) := s.ackAt core p cls seq true
      (match q with
      | none => s
      | some q => match q.body.owner with
        | none => s
        | some (c, n) => s.refusal core c n (BitVec.ofNat 8 causeMessage) q.tra none)
    | .reply r => match s.reqOf core p.src r with
      | none =>
        (match r.refused, r.jrn, r.out with
        | some (c, a), none, none => ((s.dropPkt p.id).refusal core r.ctx r.tsn c a none).logEffect s core .ack r.ctx 0 [c] (some p)
        | _, _, _ => s.dropPkt p.id)
      | some q => match r.refused with
        | none => s
        | some (c, a) =>
          let t := (s.dropPkt p.id).dropReq core q.id
          if q.line.isSome then s
          else (match q.op, q.out with
          | .scan k _ _ _, _ => t.modTile core fun t => t.modEn fun e => { e with queries := e.queries.map (fun (y : Query) => if y.id == k then { y with refused := true, left := y.left - 1, total := y.total - 1 } else y) }
          | _, none => (match q.jrn with | some j => t.journalPart core j (some (c, a)) | none => t)
          | _, some id => (t.modOuts core q.ctx id (fun (o : Outs) => o.part { r with data := q.op.zeros })).landIf core q.ctx id).logEffect s core .ack q.ctx 0 [c] (some p)
    | _ => s)

/-- A request of GSTEP arrives at the step unit: its value is what the unit holds then (R414). -/
def State.stepRead (s : State) (core c : Nat) (o : Outs) : State :=
  match o.how with
  | .gst r => { s.modOuts core c o.id (fun o => { o with need := 0, how := .fixed [(r, s.gangStep core)] none }) with fresh := s.fresh + 1 }
  | _ => s

/-- Result `o` lands by itself, logged: a gang step with its value, another as an event without data (entry 21). -/
def State.landAlone (s : State) (core c : Nat) (o : Outs) : State :=
  let i := (((s.tile core).ctx c).outs.findIdx? (fun k => k.id == o.id)).getD 0
  (s.land core c o).addEffect s core (match o.kind, o.how with
    | .other, .fixed [(r, w)] none => { s.record core .rsp c false (leBytes 8 w.toNat) none with aux := r.toNat }
    | _, _ => { s.record core .rsu c false [] none with aux := rsuLand, seq := i })

/-- RESULT_LANDING (R56, R149): at core `n`; with `b` set, reply packet `i` arrives; else the result `i` of context `j` lands, if
it is complete, or, of a GSTEP on its way, is read at the step unit. -/
def execResultLanding (s : State) : Host.Outcome State Fault Refusal :=
  let core := s.arg.n
  .next (if s.arg.b then
    (if !s.takes core then s else s.replyAt core fun s p r q =>
      match q.op with
      | .scan .. => s
      | _ => if r.refused.isSome then s else s.takeReply core p r q)
  else if !s.alive core then s
  else match ((s.tile core).ctx s.arg.j).outs.find? (fun o => o.id == s.arg.i) with
    | none => s
    | some o => if s.landsNow core o then s.landAlone core (s.arg.j % 8) o else if o.need = 1 then s.stepRead core s.arg.j o else s)

end Sys2Proof.Machine
end

