-- ==== Sys2Proof/Machine/Owner.lean ====
section
/-! DEFINITION. The owners off the wafer: home slices with their combining buffers and deduplication (R246, R250, R254,
R294, R371), CXL ports (R240, R372, R454), gradient endpoints (R315, R341 to R343), and optimiser cores' sweep (R404).
An event that is not due changes nothing. -/

namespace Sys2Proof.Machine

def State.modRim (s : State) (f : Rim → Rim) : State := { s with rim := f s.rim }

/-! ### Combining buffers (R254, R294) -/

/-- Apply one held reduction to device memory. -/
def applyComb (m : Mem) (c : Comb) : Mem :=
  let n := if c.w32 then 4 else 8
  Mem.write m c.addr (leBytes n (redNew c.op (8 * n) (Mem.nat m c.addr n) (c.x.toNat % 2 ^ (8 * n))))

def State.comb (s : State) (k : Nat) : List Comb := Tbl.get s.rim.comb k []

/-- A slice applies every reduction that it holds, in acceptance order. -/
def State.flushSlice (s : State) (k : Nat) : State :=
  if (s.comb k).isEmpty then s
  else (s.putDev ((s.comb k).foldl applyComb s.dev)).modRim fun m => { m with comb := Tbl.drop m.comb k }

/-- A slice applies its oldest held reduction. -/
def State.applyOldest (s : State) (k : Nat) : State :=
  match s.comb k with
  | [] => s
  | c :: r => (s.putDev (applyComb s.dev c)).modRim fun m => { m with comb := Tbl.put m.comb k r }

/-- Device memory as a source reads it: optimiser cores the stacks, every other the stacks merged with the buffers
(R254). -/
def State.devView (s : State) (src k : Nat) : Mem :=
  if rimBase ≤ src then s.dev else (s.comb k).foldl applyComb s.dev

/-! ### Deduplication (R371, R372) -/

def dedupKey (o : Owner) (src : Nat) : Nat := ownerCode o * 65536 + src
def State.dedupOf (s : State) (o : Owner) (src : Nat) : Dedup := Tbl.get s.rim.dedup (dedupKey o src) { done := 0, held := [] }

/-- An operation that returns a value (R260, R282). -/
def MemOp.returns : MemOp → Bool
  | .read _ _ | .atomic .. | .pop _ => true
  | _ => false

/-- The last `n` of a list with one more. -/
def keepLast {α : Type} (n : Nat) (l : List α) (a : α) : List α := (l ++ [a]).drop (l.length + 1 - n)

/-- A result is held for duplicates of its request (R371): one of the last eight, or of the last lines of copies, which are outside the
limit of 8. -/
def Dedup.hold (d : Dedup) (line : Bool) (seq : Nat) (r : Reply) : Dedup :=
  if line then { d with lines := keepLast 16 d.lines (seq, r) } else { d with held := keepLast 8 d.held (seq, r) }

/-- The result that is held of a number. -/
def Dedup.result (d : Dedup) (seq : Nat) : Option Reply := ((d.held ++ d.lines).find? (fun e => e.1 == seq)).map (fun e => e.2)

/-- A request of this number is complete, with its result if it returns one. -/
def Dedup.complete (d : Dedup) (line : Bool) (seq : Nat) (r : Option Reply) : Dedup :=
  let d := { d with done := (seq + 1) % 2 ^ 24 }
  match r with
  | none => d
  | some r => d.hold line seq r

def State.modDedup (s : State) (o : Owner) (src : Nat) (f : Dedup → Dedup) : State :=
  s.modRim fun m => { m with dedup := Tbl.put m.dedup (dedupKey o src) (f (s.dedupOf o src)) }
def State.complete (s : State) (o : Owner) (r : Req) (v : Option Reply) : State := s.modDedup o r.src fun d => d.complete r.line.isSome r.seq v

/-! ### Requests that a slice has accepted and not finished: bank queues (R313, R351), and writes that go on granule by granule -/

/-- The bank queue of a Heron unit of a stack; the number under which a slice keeps the requests it has begun. -/
def bankKey (stack unit : Nat) : Nat := 256 * stack + unit
def begunKey (slice : Nat) : Nat := 256 * 24 + slice
def State.bank (s : State) (k unit : Nat) : List HeronEntry := Tbl.get s.rim.bank (bankKey k unit) []
def State.setQueue (s : State) (key : Nat) (l : List HeronEntry) : State := s.modRim fun m => { m with bank := Tbl.put m.bank key l }
def State.setBank (s : State) (k unit : Nat) (l : List HeronEntry) : State := s.setQueue (bankKey k unit) l
def State.begun (s : State) (k : Nat) : List HeronEntry := Tbl.get s.rim.bank (begunKey k) []

def HeronEntry.req : HeronEntry → Req
  | .scan r .. => r
  | .append r .. => r
  | .access r _ => r
def HeronEntry.isAccess : HeronEntry → Bool
  | .access .. => true
  | _ => false
def HeronEntry.isScan : HeronEntry → Bool
  | .scan .. => true
  | _ => false

/-- Is a queue one of a slice? -/
def ofSlice (k key : Nat) : Bool := key / 256 == k || key == begunKey k
/-- A slice has accepted a request of a number and not finished it. -/
def State.unfinished (s : State) (o : Owner) (src seq : Nat) : Bool :=
  match o with
  | .slice k => s.rim.bank.any (fun e => ofSlice k e.1 && e.2.any (fun h => h.req.src == src && h.req.seq == seq))
  | _ => false
/-- A tile's request for a queue of a slice, or for none, waits for the tile's earlier ones at the slice's other queues (R250):
an access for all of them, a scan or an append for the accesses (R265 orders those at each unit). -/
def State.sliceHeld (s : State) (k src : Nat) (key : Option Nat) (access : Bool) : Bool :=
  s.rim.bank.any (fun e => ofSlice k e.1 && some e.1 != key && e.2.any (fun h => h.req.src == src && (access || h.isAccess)))

/-- A duplicate request (R371): answered with the held result, acknowledged again if it returns none, else dropped; one whose
first copy is still being executed is dropped. -/
def State.duplicate (s : State) (o : Owner) (p : Pkt) (r : Req) : State :=
  let unfinished := s.unfinished o r.src r.seq
  let s := s.dropPkt p.id
  if unfinished then s
  else if r.op.returns then
    match (s.dedupOf o r.src).result r.seq with
    | some v => s.emit o p.src 6 0 (.reply v) 0 0 none
    | none => s
  else s.emit o p.src 6 0 (.reply (r.reply {} none)) 0 0 none

/-- The next request of a source at an owner (R250): a duplicate is answered as R371 gives, one ahead of a gap waits. -/
def State.ownerTurn (s : State) (o : Owner) (p : Pkt) (r : Req) (f : State → State) : State :=
  match turnOf (s.dedupOf o r.src).done r.seq with
  | .early => s
  | .dup => s.duplicate o p r
  | .now => f (s.dropPkt p.id)

/-- Complete a request and answer it. -/
def State.answerReq (s : State) (o : Owner) (p : Pkt) (r : Req) (v : Served) (pop : Option (Word × Vec)) : State :=
  let rep := r.reply v pop
  (s.complete o r (if r.op.returns then some rep else none)).emit o p.src 6 0 (.reply rep) 0 0 none

/-! ### Gradient queues (R315, R341 to R343) -/

def State.gradQ (s : State) (q : Nat) : Option GradQ := Tbl.look s.rim.grad q
/-- Device address of a record of a queue's ring (R313). -/
def GradQ.slot (g : GradQ) (n : Nat) : Nat := g.base + 128 * (n % g.depth)

/-- An optimiser command of a core would write a stable page of its launch (R239). -/
def State.writesStable (s : State) (core typ : Nat) (rec : Vec) : Bool :=
  match (s.tile core).blk.lr.gang.bind s.gang? with
  | none => false
  | some k => k.stable.any (fun e => (Config.commandWrites typ rec).any (fun a => decide (e.1 ≤ a) && decide (a < e.1 + e.2)))

/-- GRADIENT_PUSH_ARRIVAL (R239, R341): packet `i` at slice `n`. With `b` set the optimiser firmware of the slice's chiplet
creates queue `i` instead (R315), its ring at device address `w` (R313): `nums` give type, depth, window and partition, then the
pushers. -/
def execGradientPushArrival (s : State) : Host.Outcome State Fault Refusal :=
  let k := s.arg.n
  .next (if s.arg.b then
    match s.arg.nums with
    | typ :: depth :: window :: prt :: pushers =>
      if typ < 256 ∧ 16 ≤ depth ∧ depth ≤ 4096 ∧ 1 ≤ window ∧ window ≤ 16 ∧ pushers.length ≤ depth / window ∧ s.arg.i < 2048 ∧ s.arg.i % 24 = k ∧
          s.arg.w.toNat + 128 * depth ≤ deviceEnd then
        s.modRim fun m => { m with grad := Tbl.put m.grad s.arg.i { typ := typ, depth := depth, window := window, pushers := pushers, prt := prt, base := s.arg.w.toNat, tail := 0, recs := [], popped := [] } }
      else s
    | _ => s
  else match s.arrival (.slice k) with
  | none => s
  | some p => match p.body with
    | .req r => (match r.op with
      | .push q typ wm rank rec =>
        if s.sliceHeld k r.src none true then s else s.ownerTurn (.slice k) p r fun s =>
          let no := s.answerReq (.slice k) p r { refused := some (BitVec.ofNat 8 causePosted, r.addr) } none
          match s.gradQ q with
          | none => no
          | some g =>
            if typ ≠ g.typ ∨ wm ≠ g.window ∨ !g.pushers.contains r.src ∨ g.prt ≠ r.part ∨ s.writesStable r.src typ rec then no
            else
              ((s.putDev (Mem.write s.dev (g.slot g.tail) (vecBytes rec))).modRim fun m =>
                { m with grad := Tbl.put m.grad q { g with tail := g.tail + 1, recs := g.recs ++ [(r.src, r.ctx, r.tsn, rank, g.tail)] } }).answerReq (.slice k) p r {} none
      | _ => s)
    | _ => s)

/-- A pop at the endpoint (R342, R343): the answer, and the state after with the pusher's window credit on its way. An optimiser
core issues for no gang, and pops the queues of every partition. -/
def State.popAt (s : State) (r : Req) (q : Nat) : Served × Option (Word × Vec) × State :=
  match s.gradQ q with
  | none => ({ refused := some (BitVec.ofNat 8 causeLoad, r.addr) }, none, s)
  | some g =>
    if g.prt ≠ r.part ∧ r.src < rimBase then ({ refused := some (BitVec.ofNat 8 causeLoad, r.addr) }, none, s)
    else match g.recs with
    | [] => ({}, some (0, 0), s)
    | (src, ctx, tsn, rank, n) :: rest =>
      let s := s.modRim fun m => { m with grad := Tbl.put m.grad q { g with recs := rest, popped := g.popped ++ [(r.src, src, ctx, tsn)] } }
      ({}, some (BitVec.ofNat 64 (2 ^ 63 + g.typ % 256 * 2 ^ 32 + rank % 2 ^ 32), vecOfBytes (Mem.bytes s.dev (g.slot n) 128)), s.emit (.slice (q % 24)) (.pool src) 6 0 (.popAck q) 0 0 none)

/-! ### Home slices (R246, R294, R346, R350, R351) -/

/-- The decay table that a home slice reads for a partition (R369): its active copy. -/
def State.sliceDecay (s : State) (k part : Nat) : Nat → Nat → Nat := decayEntry (Tbl.get s.rim.decayA (16 * k + part) [])
/-- A slice takes an entry into its pending copy (R387). -/
def State.pendDecay (s : State) (k part c e : Nat) (v : BitVec 32) : State :=
  s.modRim fun m => { m with decayP := Tbl.put m.decayP (16 * k + part) (Tbl.put (Tbl.get m.decayP (16 * k + part) []) (32 * c + e) v) }
/-- A completion of domain 0 reaches a slice: its pending copy becomes active (R369). -/
def State.activateDecay (s : State) (k part : Nat) : State :=
  s.modRim fun m => { m with
    decayA := Tbl.put m.decayA (16 * k + part) ((Tbl.get m.decayP (16 * k + part) []).foldl (fun t e => Tbl.put t e.1 e.2) (Tbl.get m.decayA (16 * k + part) []))
    decayP := Tbl.drop m.decayP (16 * k + part) }

/-- A memory's answer to a request, and the memory after. -/
def memServe (view m : Mem) (decay : Nat → Nat → Nat) (r : Req) : Served × Mem :=
  let stamped := fun (els : List (Nat × Nat × Nat)) (f : Nat → Nat → Stamped) =>
    let (l, bad) := stampNews f m els
    (stampRefused r els bad, l.foldl (fun m e => Mem.write m e.1 (leBytes 8 e.2)) m)
  match r.op with
  | .read els z => ({ data := els.flatMap (fun e => bytesAt e.2 (Mem.bytes view e.1 z)) }, m)
  | .write els => ({}, els.foldl (fun m e => Mem.write m e.1 e.2) m)
  | .atomic op w32 a x y =>
    let (old, m') := memAtomic m op w32 a x y
    ({ data := bytesAt 0 (leBytes (if w32 then 4 else 8) old) }, m')
  | .stampAdd els cls g => stamped (els.map (fun e => (e.1, e.2.1, e.2.2.toNat))) (fun w v => stampAdd decay w v g.toNat cls.toNat)
  | .stampMerge a u g => stamped [(a, 0, u.toNat)] (fun w v => stampMerge decay v w g.toNat)
  | _ => ({}, m)

/-- Bytes at an address, cut at the granules of 64 bytes (R247). -/
def granules (a : Nat) (bs : List Byte) : Nat → List (Nat × List Byte)
  | 0 => []
  | n + 1 => if bs.isEmpty then [] else (a, bs.take (64 - a % 64)) :: granules (a + (64 - a % 64)) (bs.drop (64 - a % 64)) n

/-- What a write does first, and what is left of it (R247, R266, R289): the elements of its first granule, in ascending order, with those
between them of granules that come in between, so that each granule is written as a whole. -/
def firstGranule (els : List (Nat × List Byte)) : List (Nat × List Byte) × List (Nat × List Byte) :=
  let l := els.flatMap (fun e => granules e.1 e.2 (e.2.length + 1))
  let whole := fun (n : Nat) => decide (0 < n) && (l.take n).all (fun x => (l.drop n).all (fun y => x.1 / 64 != y.1 / 64))
  l.splitAt (((List.range (l.length + 1)).find? whole).getD 0)

/-- A slice performs a request, or of a write its first granule; what is left of the request. -/
def State.sliceServe (s : State) (k : Nat) (r : Req) : Served × Option Req × State :=
  match r.op with
  | .write els =>
    let s := s.flushSlice k
    let (now, rest) := firstGranule els
    ({}, if rest.isEmpty then none else some { r with op := .write rest }, s.putDev (now.foldl (fun m e => Mem.write m e.1 e.2) s.dev))
  | .reduce op w32 a x =>
    ({}, none, s.modRim fun m => { m with comb := Tbl.put m.comb k (s.comb k ++ [{ src := r.src, op := op, w32 := w32, addr := a, x := x }]) })
  | .decay part c e v => ({}, none, s.pendDecay k part c e v)
  | op =>
    let s := if op.reads then s else s.flushSlice k
    let (v, m) := memServe (s.devView r.src k) s.dev (s.sliceDecay k r.part) r
    (v, none, s.putDev m)

/-- The answer to a request that a slice accepted before: held for duplicates, and sent. -/
def State.answerLate (s : State) (k : Nat) (r : Req) (v : Served) : State :=
  let rep := r.reply v none
  let s := if r.op.returns then s.modDedup (.slice k) r.src fun d => d.hold r.line.isSome r.seq rep else s
  s.emit (.slice k) (.pool r.src) 6 0 (.reply rep) 0 0 none

/-- Put an entry into a bank queue; a full one holds the request at the slice (R316). A scan that a repaired tile sends
again runs again (R353). -/
def State.toBank (s : State) (k unit : Nat) (p : Pkt) (r : Req) (e : HeronEntry) : State :=
  if 32 ≤ (s.bank k unit).length || s.sliceHeld k r.src (some (bankKey k unit)) e.isAccess then s
  else if turnOf (s.dedupOf (.slice k) r.src).done r.seq == .dup && e.isScan then
    let s := s.dropPkt p.id
    if s.unfinished (.slice k) r.src r.seq then s else s.setBank k unit (s.bank k unit ++ [e])
  else s.ownerTurn (.slice k) p r fun s => (s.setBank k unit (s.bank k unit ++ [e])).complete (.slice k) r none

/-- An uncorrectable error meets a request (R233): its refusal. -/
def Req.errorAt (r : Req) : Served := { refused := some (BitVec.ofNat 8 (if r.op.returns then causeLoad else causePosted), r.addr) }

/-- The Heron unit that an access to a striped page reaches (R238). -/
def MemOp.unit (op : MemOp) : Nat := op.first / 8192 % 256

/-- A slice goes on with the oldest request that it has begun: its next granule. -/
def State.goOnAt (s : State) (k : Nat) : State :=
  match s.begun k with
  | [] => s
  | e :: l => match s.sliceServe k e.req with
    | (_, some r, s) => s.setQueue (begunKey k) (.access r 0 :: l)
    | (v, none, s) => (s.setQueue (begunKey k) l).answerLate k e.req v

/-- HOME_SLICE_REQUEST (R246, R294, R371): packet `i` at slice `n`; `j` not 0 says that an uncorrectable error is met
(R233). With `b` set the slice applies its oldest held reduction to the stack, or, with `i` = 1, goes on with the oldest write
that it has begun (R247, R266). -/
def execHomeSliceRequest (s : State) : Host.Outcome State Fault Refusal :=
  let k := s.arg.n
  let o := Owner.slice k
  .next (if s.arg.b then (if s.arg.i = 1 then s.goOnAt k else s.applyOldest k)
  else match s.arrival o with
  | none => s
  | some p => match p.body with
    | .close _ => s.dropPkt p.id
    | .req r => match r.op with
      | .push .. => s
      | .append unit pos base rows => s.toBank k unit p r (.append r pos base rows 0)
      | .scan query page kk unit => s.toBank k unit p r (.scan r query page kk unit 0 { m := 0, l := 0, acc := [] })
      | .pop q => if s.sliceHeld k r.src none true then s else s.ownerTurn o p r fun s =>
          let (v, pop, s) := s.popAt r q
          s.answerReq o p r v pop
      | op =>
        if r.heron ∧ s.arg.j = 0 then s.toBank k op.unit p r (.access r 0)
        else if s.sliceHeld k r.src none true then s
        else s.ownerTurn o p r fun s =>
          if s.arg.j ≠ 0 then s.answerReq o p r r.errorAt none
          else match s.sliceServe k r with
            | (_, some rest, s) => (s.setQueue (begunKey k) (s.begun k ++ [.access rest 0])).complete o r none
            | (v, none, s) => s.answerReq o p r v none
    | _ => s)

/-- CXL_PORT_REQUEST (R240, R372): packet `i` at port `n`; `j` not 0 says that the host line is poisoned (R233). -/
def execCxlPortRequest (s : State) : Host.Outcome State Fault Refusal :=
  let k := s.arg.n
  .next (match s.arrival (.port k) with
  | none => s
  | some p => match p.body with
    | .close _ => s.dropPkt p.id
    | .req r => s.ownerTurn (.port k) p r fun s =>
        if s.arg.j ≠ 0 then s.answerReq (.port k) p r r.errorAt none
        else
          let (v, m) := memServe s.host s.host (s.sliceDecay 0 r.part) r
          { s with host := m }.answerReq (.port k) p r v none
    | _ => s)

/-- CXL_MEM_ACCESS (R454): a host agent writes `bytes` at device address `w`, or, with `b` clear, reads there and
changes nothing; with `i` = 1 it writes its own memory at `w` instead (R245). Bytes past the end of device memory are
not mapped. -/
def execCxlMemAccess (s : State) : Host.Outcome State Fault Refusal :=
  let a := s.arg.w.toNat
  .next (if !s.arg.b then s
  else if s.arg.i = 1 then { s with host := Mem.write s.host a s.arg.bytes }
  else if deviceEnd < a + s.arg.bytes.length then s
  else
    let s := (List.range 24).foldl State.flushSlice s
    s.putDev (Mem.write s.dev a s.arg.bytes))

/-! ### Optimiser cores (R404, R405, R431) -/

/-- The step of the optimiser cores for a launch (R395): GST once the completion has reached every tile, that is the
least STEPS of its tiles. -/
def State.coreStep (s : State) (g : Nat) : Nat :=
  match s.gang? g with
  | none => 0
  | some k =>
    let ts := (List.range s.tiles.length).filterMap (fun i => match s.tiles[i]? with
      | some (_, t) => if t.blk.lr.gang = some g then some t.blk.lr.steps.toNat else none
      | none => none)
    ts.foldl min k.gst.toNat

/-- Bit [34] SWP of a stamped word. -/
def stampSwp (w : Nat) : Bool := w / 2 ^ 34 % 2 == 1

/-- The visit of one stamped word (R404): the word after, if it changes. -/
def sweepWord (table : Nat → Nat → Nat) (old g : Nat) : Option Nat :=
  if !stampVld old then none
  else if !stampSwp old then some (old + 2 ^ 34)
  else match stampRead table old g with
    | .ok v => some (stampWord (g % 2 ^ 24) (classOf old) true (stampSat old) v + 2 ^ 34)
    | _ => none

/-- A rim core runs optimiser firmware. -/
def State.optimiserRuns (s : State) : Bool :=
  s.tiles.any (fun e => decide (rimBase ≤ e.1) && e.2.blk.lr.started && !e.2.vol.failed && !s.rim.failedCores.contains e.1)

/-- The recorded stamped regions of a partition, at every slice: base, size and step of the last pass (R405). -/
def State.regions (s : State) (part : Nat) : List (Nat × Nat × Nat) :=
  (s.rim.sweep.filter (fun e => e.1 % 16 == part)).flatMap (fun e => e.2)

/-- SWEEP_VISIT (R404, R405): for launch `n`, the word at device address `w`, read at the slice and written back as one
atomic, if it lies in a recorded region of the launch's partition; with `b` set the firmware records the end of a pass over the
region of base `w` and size `x` instead, in a sweep register of the base's home slice. -/
def execSweepVisit (s : State) : Host.Outcome State Fault Refusal :=
  .next (match s.gang? s.arg.n with
  | none => s
  | some k =>
    let part := (Tbl.get s.cp.queues k.queue .reset).prt.toNat
    let g := s.coreStep s.arg.n
    let a := s.arg.w.toNat
    if !s.optimiserRuns then s
    else if s.arg.b then
      let key := 16 * sliceOf a + part
      let l := (Tbl.get s.rim.sweep key []).filter (fun e => e.1 != a)
      if 16 ≤ l.length ∨ deviceEnd < a + s.arg.x.toNat then s
      else s.modRim fun m => { m with sweep := Tbl.put m.sweep key (l ++ [(a, s.arg.x.toNat, g)]) }
    else
      if a % 8 ≠ 0 ∨ !(s.regions part).any (fun e => decide (e.1 ≤ a) && decide (a + 8 ≤ e.1 + e.2.1)) then s
      else
        let s := s.flushSlice (sliceOf a)
        match sweepWord (s.sliceDecay (sliceOf a) part) (Mem.nat s.dev a 8) g with
        | some w => s.putDev (Mem.write s.dev a (leBytes 8 w))
        | none => s)

/-- OPTIMISER_CORE_FAILURE (R431): rim core `n`; its commands in flight, the records that it popped, fail as refusals
at their pushers, and are complete. -/
def execOptimiserCoreFailure (s : State) : Host.Outcome State Fault Refusal :=
  let core := s.arg.n
  .next (if core < rimBase ∨ s.rim.failedCores.contains core then s
  else
    let lost := s.rim.grad.flatMap (fun e => (e.2.popped.filter (fun p => p.1 == core)).map (fun p => (e.1, p)))
    let s := s.modRim fun m => { m with failedCores := m.failedCores ++ [core], grad := m.grad.map (fun e => (e.1, { e.2 with popped := e.2.popped.filter (fun p => p.1 != core) })) }
    let s := s.modTile core fun t => t.modVol fun v => { v with failed := true }
    lost.foldl (fun s e =>
      let o := Owner.slice (e.1 % 24)
      let dst := Owner.pool e.2.2.1
      (s.emit o dst 6 0 (.reply { jrn := none, out := none, ctx := e.2.2.2.1, tsn := e.2.2.2.2, data := [], pop := none, refused := some (BitVec.ofNat 8 causePosted, BitVec.ofNat 64 e.1), seq := 2 ^ 24 }) 0 0 none).emit
        o dst 6 0 (.optDone e.2.2.2.1 e.2.2.2.2 (core, 0)) 0 0 none) s)

end Sys2Proof.Machine
end

