-- ==== Sys2Proof/Machine/Engine.lean ====
section
/-! DEFINITION. The engines: copies (R335 to R339), Heron units (R345 to R351), the cluster array (R204 to R210, R219)
and the transpose exchange (R221, R227). An event that is not due changes nothing. -/

namespace Sys2Proof.Machine

/-! ### Copies (R335 to R339) -/

/-- Lines of a copy, and the addresses of a line's two sides, in copy order. -/
def CopyOp.total (c : CopyOp) : Nat := c.rows * (c.len / 128)
def lineAddr (base : Word) (step : Int) (per n : Nat) : Word :=
  base + BitVec.ofInt 64 (step * (n / per : Nat) + 128 * (n % per : Nat))
def CopyOp.dstAt (c : CopyOp) (n : Nat) : Word := lineAddr c.dst c.dstep (c.len / 128) n
def CopyOp.srcAt (c : CopyOp) (n : Nat) : Word := lineAddr c.src c.sstep (c.len / 128) n

/-- Where one side of a line lies. -/
inductive LinePlace where
  | at (p : Place)
  /-- a Belvis window: port, module and address there -/
  | window (port mod addr : Nat)
  | miss
  /-- the token status of a failure -/
  | fail (st : Nat)
  deriving DecidableEq, Repr

/-- Resolve one side of a line through the copy-engine TLB (R234, R338); a rim core reaches no host memory (R406). -/
def State.linePlace (s : State) (core : Nat) (write : Bool) (a : Word) : LinePlace :=
  let s := { s with cur := core }
  let far := fun (cls pa : Nat) (hs st : Bool) => match s.farPlace cls pa hs st with
    | .at p _ => LinePlace.at p
    | _ => .fail 3
  match s.classify a 128 with
  | none => .fail 3
  | some (0, _) => .at (.own (fld a 20 0))
  | some (1, t) => .at (.far (.pool t) (fld a 20 0) false)
  | some (cls, _) =>
    if rimBase ≤ core ∧ cls = 3 then .fail 3
    else if !isTile core then far cls (fld a 56 0) false false
    else
      let (asid, gen) := s.asidGen core
      match s.me.vol.tlbC.hit a asid gen with
      | none => .miss
      | some (_, _, w1) =>
        if (!write && !entryRd w1) || (write && (!entryWr w1 || entrySt w1)) then .fail 4
        else if entryBlv w1 then .window (fld w1 55 52) (fld w1 15 0) (entryPa w1 a)
        else far cls (entryPa w1 a) (entryHs w1) (entrySt w1)

/-- The engine has begun a copy. -/
def CopyOp.begun (c : CopyOp) : Bool := c.lines != 0 || c.stage != .idle || c.st != 0 || c.slot.isSome || c.tag.isSome

/-- Its turn has come: copies begin in issue order (R338), and one that has waited for a lock begins after the queries before it
that wait too (R263). -/
def Tile.copyTurn (t : Tile) (c : CopyOp) : Bool :=
  c.begun || (t.blk.en.copies.all (fun k => decide (c.id ≤ k.id) || k.begun) &&
    (!c.waits || t.blk.en.queries.all (fun q => decide (c.id ≤ q.id) || q.pages.isEmpty)))

/-- A query that has waited may send its scans: no earlier operation overlaps its result area, and the copies and queries that waited
before it have begun (R263). -/
def Tile.queryTurn (t : Tile) (q : Query) : Bool :=
  !t.engineBlocked (34 + q.idx) q.id && t.blk.en.copies.all (fun c => decide (q.id ≤ c.id) || !c.waits || c.begun) &&
    t.blk.en.queries.all (fun k => decide (q.id ≤ k.id) || k.pages.isEmpty)

/-- The scans of a query that has waited leave, numbered now; `none` where the channel table has no place. -/
def State.startQuery (s : State) (core : Nat) (q : Query) : Option State :=
  (s.modTile core fun t => t.modEn fun e => { e with queries := e.queries.map (fun k => if k.id == q.id then { k with pages := [] } else k) }).requests
    core q.ctx none (some q.id) q.rel (scanRequests q.head q.id q.pages)

/-- The first query of a core whose turn has come sends its scans, and the log says so (entry 21). -/
def State.startQueries (s : State) (core : Nat) : State :=
  match (s.tile core).blk.en.queries.find? (fun q => !q.pages.isEmpty && (s.tile core).queryTurn q) with
  | none => s
  | some q => match s.startQuery core q with
    | none => s
    | some t => t.addEffect s core { s.record core .rsu (q.ctx % 8) false [] none with aux := rsuQuery, seq := q.idx }

/-- Is a copy ready for its next line? -/
def State.copyReady (s : State) (core : Nat) (c : CopyOp) : Bool :=
  let t := s.tile core
  c.st == 0 && c.slot.isNone && c.tag.isNone && c.stage == .idle && decide (c.lines < c.total) &&
    !t.engineBlocked c.idx c.id && t.copyTurn c && (!c.rel || s.performed core c.ctx c.id c.scope)

/-- May a copy move its next line? -/
def State.copyRuns (s : State) (core : Nat) (c : CopyOp) : Bool := s.copyReady core c && s.admits core

def State.modCopy (s : State) (core idx : Nat) (f : CopyOp → CopyOp) : State := s.modCopies core (fun c => c.idx == idx) f
def State.copyOf (s : State) (core idx : Nat) : Option CopyOp := (s.tile core).blk.en.copies.find? (fun c => c.idx == idx)

/-- A line is done; a copy ends with a status. -/
def CopyOp.next (c : CopyOp) : CopyOp := { c with lines := c.lines + 1, stage := .idle }
def CopyOp.fail (c : CopyOp) (st : Nat) : CopyOp := { c with st := if c.st = 0 then st else c.st, stage := .idle }

/-- The bytes of a line whose destination lies in the copy's own source rows are unspecified (R338). -/
def CopyOp.overlap (c : CopyOp) (own : Word → Bool) (fresh off : Nat) (bs : List Byte) : List Byte :=
  let rows := ((rowStarts c.src c.sstep c.rows).filter own).map (fun a => fld a 20 0)
  ((List.range bs.length).zip bs).map (fun e =>
    if rows.any (fun r => decide (r ≤ off + e.1) && decide (off + e.1 < r + c.len)) then Config.freeByte fresh (off + e.1) else e.2)

/-- A side of a line that is not resolved: a miss goes to the TSC once, another failure ends the copy. -/
def State.lineMiss (s : State) (core : Nat) (c : CopyOp) (write : Bool) (a : Word) : State :=
  if c.slot.isSome || c.tag.isSome then s
  else match s.missOf core c.ctx 1 (if write then 1 else 0) a with
  | (.xlate slot, s) => s.modCopy core c.idx (fun c => { c with slot := some slot })
  | (_, s) => s

def State.belvisOf (s : State) (p : Nat) : Belvis := Tbl.get s.rim.belvis p { tx := 0, una := 0, rx := 0, resends := 0, out := [], asks := [] }
def State.modBelvis (s : State) (p : Nat) (f : Belvis → Belvis) : State :=
  s.modRim fun m => { m with belvis := Tbl.put m.belvis p (f (s.belvisOf p)) }

/-- An address of a module behind a Belvis port. -/
def windowAddr (mod addr : Nat) : Nat := 2 ^ 48 * mod + addr % 2 ^ 48

/-- What a step of a copy comes to: it went on, with the own-pool bytes written; it waits; or the copy fails with a status. -/
inductive LineStep where
  | moved (s : State) (own : Option (Nat × List Byte))
  | waits (s : State)
  | fails (st : Nat)

/-- The request of a copy's line is sent (R335): to its owner, as a class 6 request. -/
def State.lineRequest (s : State) (core : Nat) (c : CopyOp) (o : Owner) (op : MemOp) (a : Word) (stable : Bool)
    (stage : Nat → LineStage) : LineStep :=
  match s.requestFor core c.ctx o op none none a none (if stable then [op.first] else []) (some c.idx) with
  | none => .waits s
  | some s =>
    let id := (((s.tile core).blk.ni.reqs.getLast?).map (fun q => q.id)).getD 0
    .moved (s.modCopy core c.idx fun c => { c with stage := stage id }) none

/-- The bytes of a line go to their destination. -/
def State.lineTo (s : State) (core : Nat) (c : CopyOp) (bs : List Byte) : LineStep :=
  let a := c.dstAt c.lines
  match s.linePlace core true a with
  | .miss => .waits (s.lineMiss core c true a)
  | .fail st => .fails st
  | .window port mod wa => s.lineRequest core c (.belvis port) (.write [(windowAddr mod wa, bs)]) a false .writing
  | .at (.own off) =>
    let bs := c.overlap { s with cur := core }.ownAddr s.fresh off bs
    .moved ((s.modTile core fun t => t.poolWrite off bs).modCopy core c.idx CopyOp.next) (some (off, bs))
  | .at (.far o pa _) => s.lineRequest core c o (.write [(pa, bs)]) a false .writing

/-- A copy sends its next line on its way (R335): from the own pool it moves at once, from an owner or through a window it is read first.
Neither OVL, nor a copy in ordered mode, nor one whose destination lies in a window may name a window as its
source: found here, it ends the copy with status 4 (entry 56). -/
def State.lineSend (s : State) (core : Nat) (c : CopyOp) : LineStep :=
  let a := c.srcAt c.lines
  match s.linePlace core false a, s.linePlace core true (c.dstAt c.lines) with
  | .miss, _ => .waits (s.lineMiss core c false a)
  | .fail st, _ => .fails st
  | _, .miss => .waits (s.lineMiss core c true (c.dstAt c.lines))
  | _, .fail st => .fails st
  | .window .., .window .. => .fails 4
  | .window port mod wa, _ =>
    if c.ovl || (s.tile core).blk.lr.ord then .fails 4 else s.lineRequest core c (.belvis port) (.read [(windowAddr mod wa, 0)] 128) a false .reading
  | .at (.own off), _ => s.lineTo core c (Mem.bytes (s.tile core).pool off 128)
  | .at (.far o pa st), _ => s.lineRequest core c o (.read [(pa, 0)] 128) a st .reading

/-- AUX of a CPD record whose line goes elsewhere than into the own pool (entry 56). -/
def cpdPast : Nat := 0xFFFF

/-- The record of a line's step (R438, entry 56): data into the own pool, or that the copy has for elsewhere, as CPD; of a stable page as
SPR without it; any other step as an event of the copy. -/
def State.lineRec (s : State) (core : Nat) (c : CopyOp) (own : Option (Nat × List Byte)) (q : Option Req) (data : List Byte) (p : Option Pkt) : LogRec :=
  match own with
  | none =>
    if data.isEmpty then { s.record core .rsu c.ctx false [] p with aux := rsuLine, line := some c.idx }
    else { s.record core .cpd c.ctx false data p with aux := cpdPast, line := some c.idx }
  | some (off, bs) => match q.filter Req.allStable with
    | some q => { s.record core .spr c.ctx false [] none with seq := q.seq, src := ownerCode q.owner, aux := off / 32, line := some c.idx }
    | none => { s.record core .cpd c.ctx false bs p with aux := off / 32, line := some c.idx }

/-- A copy goes on with its next line; the log says so. -/
def State.moveLine (s : State) (core : Nat) (c : CopyOp) : State :=
  match s.lineSend core c with
  | .moved t own => t.addEffect s core (t.lineRec core c own none [] none)
  | .waits t => t
  | .fails st => s.modCopy core c.idx (fun c => c.fail st)

/-- The answer to a line's write, or a refusal of its read or write (R337). -/
def State.lineAck (s : State) (core : Nat) (p : Pkt) (r : Reply) (q : Req) (c : CopyOp) : State :=
  let writing := match c.stage with | .writing _ => true | _ => false
  ((s.dropPkt p.id).dropReq core q.id).modCopy core c.idx fun c =>
    if r.refused.isSome then c.fail (if writing then 2 else 1) else if c.st = 0 then c.next else { c with stage := .idle }

/-- The answer to the request of a copy's line (R335, R337): what was read goes to its destination, what was written is done; a
refusal ends the copy. -/
def State.lineAnswer (s : State) (core : Nat) (p : Pkt) (r : Reply) (q : Req) : State :=
  match q.line.bind (s.copyOf core) with
  | none => if q.line.isSome then (s.dropPkt p.id).dropReq core q.id else s
  | some c =>
    let ack := fun (t : State) => t.addEffect s core { t.record core .ack c.ctx false ((r.refused.map (fun e => [e.1])).getD []) (some p) with line := some c.idx }
    let reads := (match c.stage with | .reading _ => true | _ => false) && c.st == 0 && r.refused.isNone
    if !reads then ack (s.lineAck core p r q c)
    else match ((s.dropPkt p.id).dropReq core q.id).lineTo core c (r.data.map (fun e => e.2)) with
      | .moved t own => t.addEffect s core (t.lineRec core c own (some q) (if q.allStable then [] else r.data.map (fun e => e.2)) (some p))
      | .waits t => { t with net := s.net }.modTile core fun x => x.modNi fun k => { k with reqs := (s.tile core).blk.ni.reqs, send := (s.tile core).blk.ni.send }
      | .fails st => ack (((s.dropPkt p.id).dropReq core q.id).modCopy core c.idx fun c => c.fail st)

/-- COPY_DATA_ARRIVAL (R335): with `b` clear, copy `i` of core `n` goes on with its next line; with `b` set, packet `i`, the answer to
a line's request, arrives there. -/
def execCopyDataArrival (s : State) : Host.Outcome State Fault Refusal :=
  let core := s.arg.n
  .next (if s.arg.b then (if s.takes core then s.replyAt core (fun s p r q => s.lineAnswer core p r q) else s)
  else match s.copyOf core s.arg.i with
    | none => s
    | some c => if s.copyRuns core c then s.moveLine core c else s)

/-- Lines of a copy in frames that are sent and not acknowledged. -/
def State.unacked (s : State) (core idx : Nat) : Nat :=
  ((List.range 16).map (fun p => ((s.belvisOf p).out.filter (fun e => e.2.2.2.2 == (core, idx) && !e.2.2.2.1.isEmpty)).length)).foldl (fun a b => a + b) 0

/-- A copy leaves a port, and its frames that an unreachable target never acknowledged are given up (R459). -/
def Belvis.leave (b : Belvis) (u : Nat × Nat) : Belvis :=
  let l := b.out.filter (fun e => e.2.2.2.2 != u)
  let b := { b with asks := b.asks.filter (fun r => r.src != u.1 || r.line != some u.2) }
  if l.isEmpty then { b with out := [], una := b.tx, resends := 0 } else { b with out := l }

/-- The word of a copy token (R337). -/
def copyToken (st lines : Nat) : Word := BitVec.ofNat 64 (2 ^ 63 + st * 2 ^ 48 + 128 * lines % 2 ^ 48)

/-- A line past a failure may or may not have been written, and what it holds is unspecified (R337): free bytes, wherever the line would have
gone and been taken. A tile under replay changes its own pool alone. -/
def State.spoilLine (s : State) (core : Nat) (a : Word) : State :=
  let free := fun (k : Nat) => (List.range 128).map (fun i => Config.freeByte s.fresh (k + i))
  match s.linePlace core true a with
  | .at (.own off) => s.modTile core fun t => t.poolWrite off (free off)
  | .at (.far o pa _) =>
    if (s.tile core).vol.replay.isSome then s
    else (match o with
      | .pool t => if (s.tile t).refuses true pa 128 then s else s.modTile t fun x => x.poolWrite pa (free pa)
      | .port _ => { s with host := Mem.write s.host pa (free pa) }
      | .cpx => s
      | _ => s.putDev (Mem.write s.dev pa (free pa)))
  | _ => s
/-- Every line of a copy past its failure. -/
def State.spoil (s : State) (core : Nat) (c : CopyOp) : State :=
  ((List.range c.total).drop c.lines).foldl (fun s n => s.spoilLine core (c.dstAt n)) s

/-- A copy ends: its locks clear, it leaves the queue, and its token lands (R264). -/
def State.endCopy (s : State) (core : Nat) (c : CopyOp) (w : Word) : State :=
  let s := s.modTile core fun t => (t.unlock c.idx).modEn fun e => { e with copies := e.copies.filter (fun k => k.idx != c.idx) }
  (s.modOuts core c.ctx c.id (fun o => { o with need := 0, how := .fixed [(c.tok, w)] none })).landIf core c.ctx c.id

/-- COPY_TOKEN (R264, R337, R339): copy `i` of core `n` has ended, every line before a failure written, those in frames acknowledged; its
locks clear and its token lands. -/
def execCopyToken (s : State) : Host.Outcome State Fault Refusal :=
  let core := s.arg.n
  .next (match s.copyOf core s.arg.i with
  | none => s
  | some c =>
    let left := s.unacked core c.idx
    if !s.admits core ∨ c.stage ≠ .idle ∨ (c.st = 0 ∧ c.lines < c.total) ∨ (c.st ≠ 5 ∧ left ≠ 0) then s
    else
      let w := copyToken c.st (c.lines - (if c.st = 5 then left else 0))
      let t := (if c.st = 0 then s else s.spoil core c).endCopy core c w
      let t := t.modRim fun m => { m with belvis := m.belvis.map (fun e => (e.1, e.2.leave (core, c.idx))) }
      t.logEffect s core .tok c.ctx c.idx (leBytes 8 w.toNat) none)

/-! ### Heron units (R345 to R351) -/

def negInf : Nat := 0xFF800000
def neg32 (a : Nat) : Nat := a ^^^ 0x80000000
def one32 : Nat := 0x3F800000

/-- The weight of a maximum against the new one (R347): 1 where equal, else 2 to the rounded difference. -/
def heronWeight (m mn : Nat) : Nat := if elRel 0 0 m mn then one32 else exp2 (add32 0 m (neg32 mn))

/-- One position of a scan (R347): its score and its value row. -/
def Triple.step (t : Triple) (x : Nat) (v : List Nat) : Triple :=
  let mn := fmax f32 t.m x
  let a := heronWeight t.m mn
  let b := heronWeight x mn
  { m := mn, l := add32 0 (mul32 t.l a) b, acc := (t.acc.zip v).map (fun (e : Nat × Nat) => add32 0 (mul32 e.1 a) (mul32 b e.2)) }

/-- `n` BF16 values at an address, widened. -/
def bf16s (m : Mem) (a n : Nat) : List Nat := (List.range n).map (fun i => convert 1 0 0 (Mem.nat m (a + 2 * i) 2))

/-- Score of a position (R347): the tree sum of the products, times the scale. -/
def heronScore (d : Nat) (q k : List Nat) (scl : Nat) : Nat :=
  mul32 (treeSum (add32 0) 0 (Nat.log2 d) ((q.zip k).map (fun e => mul32 e.1 e.2))) scl

/-- Positions of unit u of page k, ascending, with the row and the offset in the page (R345). -/
def unitPositions (d hor k u : Nat) : List (Nat × Nat × Nat) :=
  let per := 512 / d
  (List.range 4).flatMap (fun j => (List.range per).filterMap (fun e =>
    let p := (1024 * k + 256 * j + u) * per + e
    if p < hor then some (p, j, 8192 * u + 2048 * j + 2 * d * e) else none))

/-- Bytes of a record (R348). -/
def recordBytes (m l scanned st first : Nat) (acc : List Nat) : List Byte :=
  leBytes 4 m ++ leBytes 4 l ++ leBytes 4 (scanned % 2 ^ 16 * 2 ^ 16 + st) ++ leBytes 4 first ++ acc.flatMap (leBytes 4)

/-- What a row scan comes to: the scan goes on, with the rows scanned and the triple; or its record. -/
inductive RowScan where
  | on (rows : Nat) (t : Triple)
  | record (bs : List Byte)

/-- The triple before the first position (R347). -/
def Triple.start (d : Nat) : Triple := { m := negInf, l := 0, acc := List.replicate d 0 }

/-- One row scan of a unit (R347, R348, R351): key row and value row of row group `rows`; `bad` says that the row is in error. -/
def rowScan (m : Mem) (q : Query) (page k u rows : Nat) (t : Triple) (bad : Bool) : RowScan :=
  let ps := unitPositions q.dim q.hor k u
  let row := ps.filter (fun p => p.2.1 == rows)
  if bad then .record (recordBytes negInf 0 (ps.filter (fun p => p.2.1 < rows)).length 1 ((row.head?.map (fun p => p.1)).getD 0) (List.replicate q.dim 0))
  else
    let qs := (List.range q.dim).map (fun i => convert 1 0 0 ((q.q.getD (2 * i) 0).toNat + 256 * (q.q.getD (2 * i + 1) 0).toNat))
    let t := row.foldl (fun (t : Triple) p => t.step (heronScore q.dim qs (bf16s m (page + p.2.2) q.dim) q.scl.toNat) (bf16s m (page + p.2.2 + 1024) q.dim))
      (if rows = 0 then Triple.start q.dim else t)
    if ps.any (fun p => decide (rows < p.2.1)) then .on (rows + 1) t else .record (recordBytes t.m t.l ps.length 0 0 t.acc)

/-- The query that a scan request serves. -/
def State.queryOf (s : State) (src id : Nat) : Option Query := (s.tile src).blk.en.queries.find? (fun q => q.id == id)

/-- A scan of its own tile stands before an entry (R265). -/
def behindScan (before : List HeronEntry) (src : Nat) : Bool := before.any (fun e => e.isScan && e.req.src == src)

/-- An entry that a scan for a query must wait for (R351): an earlier one of its own tile, or an append of its head below its
horizon. -/
def HeronEntry.before (s : State) (r : Req) (query : Nat) : HeronEntry → Bool
  | .append a pos base _ _ => a.src == r.src || (match s.queryOf r.src query with
    | some q => base == q.base.toNat && decide (pos < q.hor)
    | none => false)
  | e => e.req.src == r.src

/-- A scan of a bank queue: its request, query, page, number of the page, rows scanned and triple. -/
structure Scanning where
  r : Req
  query : Nat
  page : Nat
  k : Nat
  rows : Nat
  t : Triple
  deriving DecidableEq, Repr

def HeronEntry.scan? : HeronEntry → Option Scanning
  | .scan r q p k _ rows t => some { r := r, query := q, page := p, k := k, rows := rows, t := t }
  | _ => none

/-- The oldest scan that nothing before it holds. -/
def scanReady (s : State) : List HeronEntry → List HeronEntry → Option Scanning
  | _, [] => none
  | before, e :: rest => match e.scan? with
    | some x => if before.any (HeronEntry.before s x.r x.query) then scanReady s (before ++ [e]) rest else some x
    | none => scanReady s (before ++ [e]) rest

/-- The scan whose row a unit opens next (R351): the one under way, else the oldest that may start. -/
def State.scanNow (s : State) (l : List HeronEntry) : Option Scanning :=
  ((l.filterMap HeronEntry.scan?).find? (fun x => x.rows != 0)).or (scanReady s [] l)

/-- The access or append that a unit serves now (R351): the oldest of those before which no scan of their own tile stands. -/
def accessReady : List HeronEntry → List HeronEntry → Option HeronEntry
  | _, [] => none
  | before, e :: rest => if e.isScan || behindScan before e.req.src then accessReady (before ++ [e]) rest else some e

/-- Row scans that have gone ahead of an entry. -/
def HeronEntry.ahead : HeronEntry → Nat
  | .scan .. => 0
  | .append _ _ _ _ n => n
  | .access _ n => n

/-- Four row scans have gone ahead of an access or append that no scan of its own tile holds (R351). -/
def overdue : List HeronEntry → List HeronEntry → Bool
  | _, [] => false
  | before, e :: rest => (!e.isScan && !behindScan before e.req.src && decide (4 ≤ e.ahead)) || overdue (before ++ [e]) rest

/-- A row scan goes ahead of every access and append that no scan of its own tile holds (R351). -/
def countAhead : List HeronEntry → List HeronEntry → List HeronEntry
  | _, [] => []
  | before, e :: rest =>
    let f := if behindScan before e.req.src then e else match e with
      | .append r pos base rows n => .append r pos base rows (n + 1)
      | .access r n => .access r (n + 1)
      | e => e
    f :: countAhead (before ++ [e]) rest

/-- HERON_APPEND_WRITE (R350, R351): unit `i` of stack `n` serves its oldest append or ordinary access; of a write, of an append too, the
next granule (R247, R266). When all is done, it answers. -/
def execHeronAppendWrite (s : State) : Host.Outcome State Fault Refusal :=
  let k := s.arg.n
  let u := s.arg.i
  .next (match accessReady [] (s.bank k u) with
  | none => s
  | some e =>
    let put := fun (s : State) (f : HeronEntry) => s.setBank k u ((s.bank k u).map (fun x => if x.req.id == e.req.id then f else x))
    let done := fun (s : State) (v : Served) => (s.setBank k u ((s.bank k u).filter (fun x => x.req.id != e.req.id))).answerLate k e.req v
    match e with
    | .append r pos base rows n => (match s.sliceServe k { r with op := .write rows } with
      | (_, some { op := .write rest, .. }, s) => put s (.append r pos base rest n)
      | (_, _, s) => done s {})
    | _ => match s.sliceServe k e.req with
      | (_, some r, s) => put s (.access r e.ahead)
      | (v, none, s) => done s v)

/-- Write an arrived record into the result area (R346): slot 256(k − k0) + u. -/
def State.putRecord (s : State) (core : Nat) (p : Pkt) (r : Reply) (q : Req) : State :=
  match q.op with
  | .scan id _ k u => (match s.queryOf core id with
    | none => (s.dropPkt p.id).dropReq core q.id
    | some y =>
      let slot := 256 * (k - y.k0) + u
      let bs := r.data.map (fun e => e.2)
      let bad := ((bs.getD 8 0) &&& 3) != 0
      (((s.dropPkt p.id).dropReq core q.id).modTile core fun t =>
        (t.poolWrite (y.area + (16 + 4 * y.dim) * slot) bs).modEn fun e => { e with queries := e.queries.map (fun z =>
          if z.id == id then { z with left := z.left - 1, emask := if bad then z.emask ||| (1 <<< (slot / 32)) else z.emask } else z) }).logEffect s
        core .tok q.ctx 0 bs (some p))
  | _ => s

/-- HERON_SCAN (R347, R348, R351): unit `i` of stack `n` opens the next row of a scan, unless four row scans have gone ahead of
an access or append; after the last row it sends the record. `j` not 0 says that the row is in error. With `b` set, record
packet `i` arrives at core `n` and is written. -/
def execHeronScan (s : State) : Host.Outcome State Fault Refusal :=
  let k := s.arg.n
  let u := s.arg.i
  let l := s.bank k u
  .next (if s.arg.b then (if s.takes k then s.replyAt k (fun s p r q => if r.refused.isSome then s else s.putRecord k p r q) else s)
  else match s.scanNow l with
  | none => s
  | some x =>
    let without := fun (s : State) => s.setBank k u ((s.bank k u).filter (fun e => e.req.id != x.r.id))
    match s.queryOf x.r.src x.query with
    | none => without s
    | some q =>
      if overdue [] l then s
      else
        let s := s.setBank k u (countAhead [] l)
        match rowScan (s.devView x.r.src k) q x.page x.k u x.rows x.t (s.arg.j != 0) with
        | .on rows t => s.setBank k u ((s.bank k u).map (fun e => if e.req.id == x.r.id then .scan x.r x.query x.page x.k u rows t else e))
        | .record bs => (without s).emit (.slice k) (.pool x.r.src) 6 0 (.reply (x.r.reply { data := bytesAt 0 bs } none)) 0 0 none)

/-- A query ends: its lock clears, it leaves the queue, and its token lands (R264). -/
def State.endQuery (s : State) (core : Nat) (q : Query) (w : Word) : State :=
  let s := s.modTile core fun t => (t.unlock (34 + q.idx)).modEn fun e => { e with queries := e.queries.filter (fun k => k.idx != q.idx) }
  (s.modOuts core q.ctx q.id (fun o => { o with need := 0, how := .fixed [(q.tok, w)] none })).landIf core q.ctx q.id

/-- HERON_TOKEN (R264, R349): query `i` of core `n` has its last record; its lock clears and its token lands. -/
def execHeronToken (s : State) : Host.Outcome State Fault Refusal :=
  let core := s.arg.n
  .next (match (s.tile core).blk.en.queries.find? (fun q => q.idx == s.arg.i) with
  | none => s
  | some q =>
    if q.left ≠ 0 ∨ !s.admits core then s
    else
      let w := heronTokenWord (if q.refused then 2 else if q.emask = 0 then 0 else 1) q.total q.emask.toNat
      (s.endQuery core q w).logEffect s core .tok q.ctx (16 + q.idx) (leBytes 8 w.toNat) none)

/-! ### The array (R204, R205, R210, R219, R433) -/

/-- A command leaves the queue with SQD; its destination's IFL clears and an idle request is settled. -/
def State.retire (s : State) (core : Nat) (e : ACmdEntry) : State :=
  let s := s.modTile core fun t => t.modArr fun a => { a with queue := a.queue.filter (fun k => k.seq != e.seq), sqd := e.seq }
  let s := match e.cmd.dest with | some d => s.clearIfl core d | none => s
  s.settleLease core

/-- A command is abandoned (R210): no result is written, its IFL clears, and the scale-pairing fault is pending. -/
def State.abandon (s : State) (core : Nat) (e : ACmdEntry) : State :=
  ((s.modTile core fun t => t.unlock (16 + e.seq.toNat % 16)).retire core e).refusal core e.ctx e.tsn (BitVec.ofNat 8 causePairing) (BitVec.ofNat 64 e.seq.toNat) none

/-- AUX of the records of an abandoned command and of a cancelled exchange entry, which no packet brings (entry 21). -/
def ackAbandon : Nat := 256
def ackCancel : Nat := 1

/-- The log of a replaying tile says that a command was abandoned. -/
def Tile.toAbandon (t : Tile) (e : ACmdEntry) : Bool :=
  (t.vol.replay.getD []).any (fun r => r.kind == .ack && r.aux == ackAbandon + e.seq.toNat && r.src == e.count.toNat)

/-- The oldest command of a tile that has not started. -/
def Tile.nextCmd (t : Tile) : Option ACmdEntry := t.blk.arr.queue.find? (fun e => !e.started)

/-- A start counts towards the lease (R205). -/
def State.countStart (s : State) (core : Nat) (f : State → State) : State :=
  let k := clusterOf core
  let count := (s.cluster k).started + 1
  let s := f (s.modCluster k fun c => { c with started := count })
  if 16 ≤ count ∧ s.holds core then s.nextLease k else s

/-- ARRAY_COMMAND_START (R210, R219): the oldest command of tile `n` not yet started, while the tile holds the lease;
`j` not 0 says that its sequence numbers disagree, so that it is abandoned. -/
def execArrayCommandStart (s : State) : Host.Outcome State Fault Refusal :=
  let core := s.arg.n
  .next (if !s.holds core || (s.tile core).vol.failed then s
  else match (s.tile core).nextCmd with
  | none => s
  | some e =>
    if (s.tile core).toAbandon e then s
    else if s.arg.j ≠ 0 then (s.countStart core fun s => s.abandon core e).addEffect s core
      { s.record core .ack e.ctx false [BitVec.ofNat 8 causePairing] none with aux := ackAbandon + e.seq.toNat, src := e.count.toNat }
    else s.countStart core fun s =>
      let (e, t) := (s.tile core).startCmd e
      (s.modTile core fun _ => t).modTile core fun t => t.modArr fun a => { a with queue := a.queue.map (fun k => if k.seq == e.seq then e else k) })

/-- May a started command write its last result before those in front of it (R219)? MLDW has the weight port to itself and keeps only
the order of MLDWs; every other command keeps the order of the accumulator path; and an MMA waits for its slot. -/
def ACmd.after (c d : ACmd) : Bool :=
  match c, d with
  | .mldw _ _ _, .mldw _ _ _ => true
  | .mldw _ _ _, _ => false
  | .mma _ _ w _ _, .mldw v _ _ => w == v
  | _, .mldw _ _ _ => false
  | _, _ => true

/-- The `i`-th command of a queue, started, with no command in front of it that it must follow. -/
def completes (q : List ACmdEntry) (i : Nat) : Option ACmdEntry :=
  match q[i]? with
  | none => none
  | some e => if e.started && (q.take i).all (fun d => !e.cmd.after d.cmd) then some e else none

/-- ARRAY_COMMAND_COMPLETION (R219): the command at place `j` of the queue of tile `n` writes its last result. -/
def execArrayCommandCompletion (s : State) : Host.Outcome State Fault Refusal :=
  let core := s.arg.n
  .next (match completes (s.tile core).blk.arr.queue s.arg.j with
  | none => s
  | some e => if (s.tile core).vol.failed then s else (s.modTile core fun t => t.writeCmd e).retire core e)

/-- LEASE_END (R205, R206): the lease of cluster `n` ends, 4,096 cycles after its grant. -/
def execLeaseEnd (s : State) : Host.Outcome State Fault Refusal :=
  .next (if (s.cluster s.arg.n).holder.isSome then s.nextLease s.arg.n else s)

/-! ### The transpose exchange (R221, R224, R227) -/

/-- The entries of a cluster's positions. -/
def State.entries (s : State) (k : Nat) : List (Nat × Option (Nat × Nat × Nat)) :=
  (List.range 16).map (fun p => (p, (s.tile (tileAt k p)).blk.arr.mx))

/-- The pair that schedule n gives to fragment f of position p (R367): the identity transpose where not loaded. -/
def Cluster.sends (c : Cluster) (n p f : Nat) : Nat × Nat :=
  let e := Tbl.get c.sched (256 * n + 16 * p + f) (16 * f + p)
  (e / 16 % 16, e % 16)

/-- Two rows of an accumulator as bytes, and their replacement. -/
def Tile.fragment (t : Tile) (a f : Nat) : List Byte := Mem.bytes t.pool (t.accAddr a + 4096 * f) 4096
def Tile.setFragment (t : Tile) (a f : Nat) (bs : List Byte) : Tile :=
  { t with pool := Mem.write t.pool (t.accAddr a + 4096 * f) bs, par := parWritten t.par (t.accAddr a + 4096 * f) bs.length }

/-- Move every fragment: all sources are read before any destination is written. -/
def State.moveFragments (s : State) (k n : Nat) (l : List (Nat × Nat × Nat)) : State :=
  let moves := l.flatMap (fun e => (List.range 16).map (fun f =>
    let (q, g) := (s.cluster k).sends n e.1 f
    (q, g, (s.tile (tileAt k e.1)).fragment e.2.2 f)))
  moves.foldl (fun s m => match l.find? (fun e => e.1 == m.1) with
    | some (_, d, _) => s.modTile (tileAt k m.1) fun t => t.setFragment d m.2.1 m.2.2
    | none => s) s

/-- The entry of a tile is cancelled, with the asynchronous array-state trap (R221). -/
def State.cancelEntry (s : State) (core : Nat) : State :=
  let (c, n) := (s.tile core).blk.arr.mxBy
  if (s.tile core).blk.arr.mx.isNone then s
  else (s.modTile core fun t => t.modArr fun a => { a with mx := none }).refusal core c n (BitVec.ofNat 8 causeArray) 0 none

/-- Cancel every entry of a cluster (R221); each tile logs it. -/
def State.cancelExchange (s : State) (k : Nat) : State :=
  (List.range 16).foldl (fun s p =>
    let core := tileAt k p
    if (s.tile core).blk.arr.mx.isNone then s
    else (s.cancelEntry core).logEffect s core .ack ((s.tile core).blk.arr.mxBy.1 % 8) ackCancel [BitVec.ofNat 8 causeArray] none) s

/-- The boundary of a tile that an exchange asks for has ended, or its checkpoint stands in staging as a whole (R435, R443). -/
def Volatile.bounded (v : Volatile) : Bool := !v.owed && (v.phase == .none || v.phase == .committing)

/-- The boundaries before an exchange have all ended and those after it have not (R227, R443): a failure now takes all 16 tiles back. -/
def State.bracketed (s : State) (k : Nat) : Bool :=
  let c := s.cluster k
  c.running.isSome || c.post || (c.pre && (List.range 16).all (fun p => (s.tile (tileAt k p)).vol.bounded))

/-- A tile's pending entry may start (R225, R228): the tile is neither stopped, nor failed, nor past a switch time. -/
def State.mayExchange (s : State) (core : Nat) : Bool :=
  let v := (s.tile core).vol
  !v.failed && !v.halted && !v.switched && !v.saved && (match v.switchAt with | some t => decide ((s.timeAt core).toNat < t.toNat) | none => true)

/-- EXCHANGE_START (R221, R225, R227, R228): cluster `n`, all 16 entries present. Entries that differ in their schedule are
cancelled. Else every participant first takes a boundary; once those have ended, the exchange starts. -/
def execExchangeStart (s : State) : Host.Outcome State Fault Refusal :=
  let k := s.arg.n
  let es := s.entries k
  .next (match es.filterMap (fun e => e.2.map (fun x => (e.1, x.1, x.2.1, x.2.2))) with
  | [] => s
  | (p0, d0, s0, n) :: r =>
    let l := (p0, d0, s0, n) :: r
    if l.length ≠ 16 ∨ (s.cluster k).running.isSome ∨ (s.cluster k).post ∨ l.any (fun e => !s.mayExchange (tileAt k e.1)) then s
    else if l.any (fun e => e.2.2.2 != n) then (if l.any (fun e => (s.tile (tileAt k e.1)).vol.replay.isSome) then s else s.cancelExchange k)
    else if l.any (fun e => let a := (s.tile (tileAt k e.1)).blk.arr; (a.acc e.2.1).ifl || (a.acc e.2.2.1).ifl) then s
    else if !(s.cluster k).pre then
      (if l.any (fun e => (s.tile (tileAt k e.1)).vol.replay.isSome) then s
      else ((List.range 16).foldl (fun s p => s.startBoundary (tileAt k p)) s).modCluster k fun c => { c with pre := true })
    else if !(List.range 16).all (fun p => (s.tile (tileAt k p)).vol.bounded) then s
    else
      let m := l.map (fun e => (e.1, e.2.1, e.2.2.1))
      let s := (s.moveFragments k n m).modCluster k fun c => { c with running := some (n, m), pre := false }
      m.foldl (fun s e => s.modTile (tileAt k e.1) fun t => t.modArr fun a =>
        { a.setAcc e.2.1 (fun x => { x with ifl := true, drt := true }) with mx := none }) s)

/-- The boundary that an exchange's end forces at a tile (R227): a tile that replays owes it (R440). -/
def State.boundAfter (s : State) (core : Nat) : State :=
  if (s.tile core).vol.replay.isSome then s.modTile core fun t => t.modVol fun v => { v with owed := true } else s.startBoundary core

/-- EXCHANGE_END (R221, R227): the exchange of cluster `n` ends; its IFL bits clear and every participant takes a
boundary, which its next exchange waits for; where no participant is protected there is none to wait for. -/
def execExchangeEnd (s : State) : Host.Outcome State Fault Refusal :=
  let k := s.arg.n
  .next (match (s.cluster k).running with
  | none => s
  | some (_, l) =>
    if l.any (fun e => (s.tile (tileAt k e.1)).vol.failed) then s
    else
      let s := s.modCluster k fun c => { c with running := none }
      let s := l.foldl (fun s e => (s.clearIfl (tileAt k e.1) e.2.1).boundAfter (tileAt k e.1)) s
      s.modCluster k fun c => { c with post := l.any (fun e => let v := (s.tile (tileAt k e.1)).vol; v.phase != .none || v.owed) })

end Sys2Proof.Machine
end

