-- ==== Sys2Proof/Machine/Barrier.lean ====
section
/-! DEFINITION. The barrier tree, the step unit and the Wisp probe (R267, R393 to R399, R405). An event that is not due
changes nothing. -/

namespace Sys2Proof.Machine

/-- The tiles of a launch's rectangle in rank order (R46). -/
def Gang.tiles (k : Gang) : List Nat :=
  (List.range k.lrec.gh).flatMap (fun j => (List.range k.lrec.gw).map (fun i => tileNo (k.lrec.gxo + i) (k.lrec.gyo + j)))
/-- A domain at the tree. -/
def Gang.domain (k : Gang) (n : Nat) : Domain := Tbl.get k.doms n { left := [], odd := [], sample := [], zero := false, clear := false }
def Gang.setDomain (k : Gang) (n : Nat) (d : Domain) : Gang := { k with doms := Tbl.put k.doms n d }
/-- Active members of a domain in ascending rank. -/
def State.membersOf (s : State) (k : Gang) (n : Nat) : List Nat := k.tiles.filter (fun t => (s.tile t).blk.sy.mem.getLsbD n)

/-- A tile presents its arrival on a domain to the tree: ARR stands, the accesses that R409 holds it for are performed
at gang scope, and the tile neither failed nor replays; its EPO says that the arrival is for the epoch that the tree is completing
(R440). -/
def State.arrived (s : State) (k : Gang) (t n : Nat) : Bool :=
  let x := s.tile t
  x.blk.sy.arr.getLsbD n && x.blk.sy.epo.getLsbD n == (k.domain n).odd.contains t && !x.vol.failed && x.vol.replay.isNone &&
    x.blk.sy.arvs.all (fun e => e.1 != n || s.performed t e.2.1 e.2.2 5)

/-- Every active member has arrived. -/
def State.allArrived (s : State) (k : Gang) (n : Nat) : Bool :=
  !(s.membersOf k n).isEmpty && (s.membersOf k n).all (fun t => s.arrived k t n)

def SyncPart.bytesOf (k : SyncPart) (n : Nat) : BitVec 40 := k.pbc.toList.getD n 0

/-- BARRIER_WAVE (R398): a wave over domain `i` of launch `n` samples every tile's pending bytes and its change bit. -/
def execBarrierWave (s : State) : Host.Outcome State Fault Refusal :=
  let n := s.arg.i % 16
  .next (match s.gang? s.arg.n with
  | none => s
  | some k =>
    if k.state ≠ .running then s
    else
      let d := k.domain n
      let now : Tbl (BitVec 40) := k.tiles.map (fun t => (t, (s.tile t).blk.sy.bytesOf n))
      let sum := now.foldl (fun (a : BitVec 40) e => a + e.2) 0
      let same := k.tiles.all (fun t => !(s.tile t).blk.sy.pch.getLsbD n)
      let ok := d.left.isEmpty && s.allArrived k n && sum == 0 && same && d.zero
      (k.tiles.foldl (fun s t => s.modTile t fun x => x.modSy fun y => { y with pch := setFld y.pch n n 0 }) s).modGang s.arg.n fun k => k.setDomain n { d with sample := now, zero := sum == 0, clear := d.clear || ok })

/-! ### The step unit (R393, R394, R405) -/

/-- f32 of a power of two with an s8 exponent. -/
def powWord (e : Int) : BitVec 32 :=
  if -126 ≤ e then BitVec.ofNat 32 ((e + 127).toNat * 2 ^ 23) else BitVec.ofNat 32 (2 ^ (149 + e).toNat)

/-- The loss-scale machine at a step increment (R394). -/
def Gang.scale (k : Gang) (ovf : Bool) : Gang :=
  if !k.lrec.lsen then k
  else if ovf then { k with ls := max (k.ls - 1) k.lrec.lsmin, cln := 0 }
  else if k.cln + 1 = (if k.lrec.ncln = 0 then 2000 else k.lrec.ncln) then { k with ls := min (k.ls + 1) k.lrec.lsmax, cln := 0 }
  else { k with cln := k.cln + 1 }

/-- The step unit at a completion of domain 0 (R393): with a request, from a tile or from STEPC, GST advances. -/
def Gang.stepUnit (k : Gang) (req ovf : Bool) : Gang :=
  if req || k.srq then { k.scale ovf with gst := k.gst + 1, srq := false } else k

/-- Partition of a gang (R498): that of its queue. -/
def State.gangPart (s : State) (k : Gang) : Nat := match k.tiles with | t :: _ => (s.tile t).blk.lr.prt | [] => 0

/-- Stamped regions of a partition whose last pass lies 2^21 or more steps behind (R405). -/
def State.lateRegions (s : State) (part : Nat) (gst : Word) : List Nat :=
  ((s.regions part).filter (fun e => decide (2 ^ 21 + e.2.2 ≤ gst.toNat))).map (fun e => e.1)

/-- Home slices as places that a completion of domain 0 reaches (R369). -/
def sliceCodes : List Nat := (List.range 24).map (fun k => 40000 + k)

/-- A domain completes at the tree: with domain 0 the step unit and the sweep check go with it, and it reaches the home slices as well
(R369, R395). What the last wave saw stays (R398). -/
def State.beginCompletion (s : State) (g : Nat) (k : Gang) (n : Nat) : State :=
  let l := s.membersOf k n
  let s := s.modGang g fun k => k.setDomain n { k.domain n with
    left := l ++ (if n = 0 then sliceCodes else []), clear := false
    odd := (k.domain n).odd.filter (fun t => !l.contains t) ++ l.filter (fun t => !(k.domain n).odd.contains t) }
  if n ≠ 0 then s
  else
    let k' := k.stepUnit (l.any (fun t => (s.tile t).blk.sy.stqC)) (l.any (fun t => (s.tile t).blk.sy.ovtC))
    let late := if k'.gst = k.gst ∨ s.cp.hung then [] else s.lateRegions (s.gangPart k) k'.gst
    let s := s.modGang g fun k => { k with gst := k'.gst, srq := k'.srq, stepped := k'.gst != k.gst, ls := k'.ls, cln := k'.cln, sweepLate := k.sweepLate || !late.isEmpty }
    { s with mg := { s.mg with sweepLates := s.mg.sweepLates ++ late } }

/-! ### A completion at a tile (R395, R396) -/

/-- Arrival bit, epoch bit, and with domain 0 the items of R395. -/
def SyncPart.complete (k : SyncPart) (n : Nat) (ord : Bool) : SyncPart :=
  let k := { k with arr := setFld k.arr n n 0, epo := k.epo ^^^ (1 <<< n), arvs := k.arvs.filter (fun e => e.1 != n) }
  if n ≠ 0 then k
  else { k with mem := k.memP, drn := k.drnP, stqC := false, ovtC := false,
                xph := k.xph != ord, nxs := if ord && !k.xph then 0 else k.nxs }

/-- A context that waits in WTB on the domain goes on, its destination 0 (R409). -/
def Ctx.wtbDone (c : Ctx) (n : Nat) : Ctx :=
  match c.run with
  | .waiting (.wtb m a len) => if m = n then { c.wg a 0 with pc := c.pc + BitVec.ofNat 64 len, run := .ready } else c
  | _ => c

/-- The completion of a domain at a tile, as one step: with domain 0, if the step has advanced, STEPS and LSCL take the values given. -/
def Tile.complete (t : Tile) (n : Nat) (step : Option (Word × BitVec 32)) : Tile :=
  let t := t.modSy fun k => k.complete n t.blk.lr.ord
  let t := if n ≠ 0 then t
    else (t.modLr fun r => match step with | some (g, l) => { r with steps := g, lscl := l } | none => r).modVol fun v =>
      { v with decayA := v.decayP.foldl (fun d e => Tbl.put d e.1 e.2) v.decayA, decayP := [] }
  { t with blk := { t.blk with cx := t.blk.cx.map (fun c => c.wtbDone n) } }

/-- A completion has reached a place. -/
def State.tookCompletion (s : State) (g core n : Nat) : State :=
  s.modGang g fun k => k.setDomain n { k.domain n with left := (k.domain n).left.erase core }

/-- A tile takes a completion that its tree node has (R395), and logs it. -/
def State.completeAt (s : State) (g : Nat) (k : Gang) (core n : Nat) : State :=
  let l := powWord k.ls
  let t := (s.tookCompletion g core n).modTile core fun t => t.complete n (if k.stepped then some (k.gst, l) else none)
  t.logEffect s core .bar (t.woken s core) n (if n = 0 ∧ k.stepped then leBytes 8 k.gst.toNat ++ leBytes 4 l.toNat else []) none

/-- In ordered mode an operation of a tile that has met a translation fault, of a copy or of a unit, is still to be serviced (R62). A
fault is serviced once its miss is answered, be it with a failure that leads to the upcall: R62 does not say which moment ends it (DESIGN
CHOICE, entry 68). -/
def State.faultStands (s : State) (core : Nat) : Bool :=
  let t := s.tile core
  t.blk.lr.ord && (t.blk.en.copies.any (fun c => c.slot.isSome || c.tag.isSome) ||
    (List.range 8).any (fun c => match (t.ctx c).run with
      | .waiting (.xlate k) => !s.waitOver core c (.xlate k)
      | .waiting .misses => !s.waitOver core c .misses
      | _ => false))

/-- May a domain complete (R61, R62, R396, R398)? In ordered mode domain 0 waits for every fault that stands, and in the compute
phase for every copy. -/
def State.domainDone (s : State) (k : Gang) (n : Nat) : Bool :=
  let l := s.membersOf k n
  (k.domain n).left.isEmpty && s.allArrived k n &&
    (!l.any (fun t => (s.tile t).blk.sy.drn.getLsbD n) || (k.domain n).clear) &&
    (n != 0 || !k.lrec.ord || (k.tiles.all (fun t => !s.faultStands t) &&
      (l.any (fun t => (s.tile t).blk.sy.xph) || k.tiles.all (fun t => (s.tile t).blk.en.copies.isEmpty))))

/-- A completion of domain 0 of launch `g` reaches a home slice, whose pending decay table becomes active (R369). -/
def State.completeSlice (s : State) (g code : Nat) : State :=
  match s.gang? g with
  | none => s
  | some k => if k.state = .running ∧ (k.domain 0).left.contains code then (s.tookCompletion g code 0).activateDecay (code - 40000) (s.gangPart k) else s

/-- DOMAIN_COMPLETION (R369, R395, R396): the completion of domain `i` reaches tile `n`; with `n` 40,000 + slice, that of domain 0 of
launch `j` reaches a home slice. -/
def execDomainCompletion (s : State) : Host.Outcome State Fault Refusal :=
  let core := s.arg.n
  let n := s.arg.i % 16
  .next (if 40000 ≤ core then s.completeSlice s.arg.j core
  else match (s.tile core).blk.lr.gang with
  | none => s
  | some g => match s.gang? g with
    | none => s
    | some k =>
      if k.state ≠ .running ∨ !s.admits core then s
      else
        let s' := if s.domainDone k n then s.beginCompletion g k n else s
        match s'.gang? g with
        | some k => if (k.domain n).left.contains core then s'.completeAt g k core n else s
        | none => s)

/-! ### The Wisp probe (R399) -/

/-- A tile is quiescent: no context running or ready, its task queue empty; a halted tile is not (R424). -/
def State.quiescent (s : State) (t : Nat) : Bool :=
  (List.range 8).all (fun c => !s.ready t c) && (s.tile t).vol.taskQ.isEmpty && !(s.tile t).vol.halted

/-- The probe's result word (R409): the sum in [47:8], white in [0]. -/
def Probe.word (p : Probe) : Word := BitVec.ofNat 64 (p.sum.toNat * 256 + (!p.black && p.sum == 0).toNat)

/-- The result of a probe lands in its context's oldest PRB of the domain (R409): the probes of a domain run one after another (R399). -/
def State.landProbe (s : State) (core c n : Nat) (w : Word) : State :=
  match ((s.tile core).ctx c).outs.find? (fun o => o.how == .probe n) with
  | none => s
  | some o => (s.modOuts core c o.id fun o => { o with need := 0, how := .fixed (o.gs.map (fun a => (a, w))) none }).landIf core c o.id

/-- A probe ends: its result lands at its issuer, and the domain's next probe may run. -/
def State.endProbe (s : State) (g n : Nat) (p : Probe) : State :=
  let t := s.modGang g fun k => { k with probes := Tbl.put k.probes n (match (Tbl.get k.probes n []).drop 1 with
    | [] => []
    | q :: r => (if q.black then q else { q with left := s.membersOf k n }) :: r) }
  let u := t.landProbe p.tile p.ctx n p.word
  u.addEffect s p.tile { s.record p.tile .bar p.ctx false (leBytes 8 p.word.toNat) none with aux := 16 + n, probe := some p }

/-- PROBE_VISIT (R399): the running probe of domain `i` of launch `n` visits its next member, or returns. -/
def execProbeVisit (s : State) : Host.Outcome State Fault Refusal :=
  let g := s.arg.n
  let n := s.arg.i % 16
  .next (match s.gang? g with
  | none => s
  | some k =>
    if k.state ≠ .running then s
    else match Tbl.get k.probes n [] with
    | [] => s
    | p :: rest => match p.left with
      | [] => if s.admits p.tile then s.endProbe g n p else s
      | t :: l =>
        if !s.quiescent t || !s.admits t || (l.isEmpty && !s.admits p.tile) then s
        else
          let sy := (s.tile t).blk.sy
          let p := { p with left := l, sum := p.sum + sy.bytesOf n, black := p.black || sy.wcol.getLsbD n }
          let s := s.modTile t fun t => t.modSy fun k => { k with wcol := setFld k.wcol n n 0 }
          let s := s.modGang g fun k => { k with probes := Tbl.put k.probes n (p :: rest) }
          if l.isEmpty then s.endProbe g n p else s)

end Sys2Proof.Machine
end

