-- ==== Sys2Proof/Machine/Deadline.lean ====
section
/-! DEFINITION. Brim time and the deadline (R65 to R75, R392), fatal reports (R428), parked contexts (R169) and the
start of tasks (R50 to R53). An event that is not due changes nothing. -/

namespace Sys2Proof.Machine

/-! ### Brim time (R68, R70) -/

/-- Cause code of a diversion (R68). -/
def Ctx.brimCause (c : Ctx) : Nat :=
  let other := if c.nest then 7 else if c.upCause ≠ 0 && !c.upGone then 6 else 0
  match c.run with
  | .waiting w => match w with
    | .results _ | .fence _ _ | .jdrain | .ofence | .release _ | .image _ _ _ | .overlayLock => 1
    | .wtb _ _ _ => 2
    | .monw _ => 3
    | .park _ _ => 4
    | .message _ => 5
    | .xlate _ | .misses => 6
    | _ => other
  | _ => other

/-- A running, ready or waiting context. -/
def Ctx.active (c : Ctx) : Bool :=
  match c.run with
  | .ready | .stalled | .waiting _ => true
  | _ => false

/-- A wait has ended before the diversion (R55, R175). Where brim time itself ends a park, a wake time after B has not come (R169); at
w = B it has, a case that the manual does not order (DESIGN CHOICE, entry 68). -/
def State.overAtBrim (s : State) (core c : Nat) (w : Wait) : Bool :=
  let r := (s.tile core).blk.lr
  s.waitOver core c w && (match w with | .park t _ => r.brimFired || decide (t.toNat ≤ r.brt.toNat) | _ => true)

/-- The cause with which a context of a core diverts now: a context whose wait is over is ready (R55, R175). -/
def State.brimCause (s : State) (core c : Nat) : Nat :=
  let x := (s.tile core).ctx c
  match x.run with
  | .waiting w => if s.overAtBrim core c w then { x with run := .ready }.brimCause else x.brimCause
  | _ => x.brimCause

/-- A context diverts with a cause (R68, R71): a WTB answers 1, a monitor is disarmed, a parked context stands behind its PARK
(R169), an upcall is abandoned (R69, R429), and results for g1 and g2 are discarded when they land. Of a context in WTB or MONW, g1
names that unit: R68 says the PC at which it was diverted, and not whether the unit counts as passed (entry 67). -/
def Ctx.divert (c : Ctx) (entry : Word) (cause : Nat) : Ctx :=
  let x := match c.run with
    | .waiting (.wtb _ a _) => if cause = 2 then c.wg a 1 else c
    | .waiting (.monw _) => if cause = 3 then { c with marm := false } else c
    | .waiting (.park _ _) => c.unpark
    | _ => c
  { ((x.wg 1 x.pc).wg 2 (BitVec.ofNat 64 cause)) with
    pc := entry, run := .ready, diverted := true, upGone := true
    outs := c.outs.map (fun o => { o with dropped := o.dropped ++ o.gs.filter (fun r => r == 1 || r == 2) }) }

/-- Stop a context at an instruction boundary (R67, R72); a parked one stands behind its PARK (R169). -/
def Ctx.halt (c : Ctx) : Ctx := if c.active then { c.unpark with run := .stopped false } else c

/-- Is a diversion due: brim time has fired, the launch has a wrap-up window, and a context is still to divert? -/
def State.divertDue (s : State) (core : Nat) : Bool :=
  let t := s.tile core
  t.blk.lr.brimFired && !t.blk.lr.dlnFired && t.blk.lr.brt != t.blk.lr.dln && t.blk.cx.toList.any (fun c => c.active && !c.diverted) &&
    s.alive core && s.unheld core && !t.vol.halted

/-- The translation requests of a context are withdrawn; an answer of the host stays, and fills the TLB (R69). -/
def State.dropMisses (s : State) (core c : Nat) : State :=
  s.modCluster (homeCluster core) fun k => { k with reqs := k.reqs.filter (fun r => !(r.pos == posOf core && r.ctx == c && r.kind != 1 && r.acc != 3)) }

/-- A context diverts, or without a wrap-up entry stops (R67). -/
def State.divertCtx (s : State) (core c cause : Nat) : State :=
  (s.modTile core fun t => t.modCtx c fun k => if t.blk.lr.bent = 0 then k.halt else k.divert (BitVec.ofNat 64 t.blk.lr.bent) cause).dropMisses core c

/-- Every context still to divert does so with its cause, and the tile logs it (R73, R438). -/
def State.divertAll (s : State) (core : Nat) (cause : Nat → Nat) : State :=
  (List.range 8).foldl (fun s c =>
    let x := (s.tile core).ctx c
    if !x.active || x.diverted then s
    else (s.divertCtx core c (cause c)).logEffect s core .dvt c 0 (leBytes 8 (cause c)) none) s

/-- What brim time asks of a core at an instruction boundary: the comparator, then the diversion (R68, R392). -/
def State.brimStep (s₀ : State) (core : Nat) : State :=
  let s := s₀.brimNow core
  if s.divertDue core then s.divertAll core (s₀.brimCause core) else s

/-- Is a core under one of the debug halts (R450)? -/
def Tile.underHalt (t : Tile) (halts : List Nat) : Bool := halts.contains 16 || (t.blk.lr.gang.isSome && halts.contains t.blk.lr.prt)

/-- A halt is to stop a tile that it has not stopped: a checkpoint boundary, and the diversion that waits behind it, come first (R148,
R421, R424). -/
def State.haltDue (s : State) (core : Nat) : Bool :=
  isTile core && (s.tile core).underHalt s.mg.halts && !(s.tile core).vol.halted && s.unheld core

/-- The halt stops the tile, after a diversion that is due (R148). -/
def State.haltTile (s : State) (core : Nat) : State := (s.brimStep core).modTile core fun t => t.modVol fun v => { v with halted := true }

/-- BRIM_TIME (R67, R68, R70, R392): at tile `n`. -/
def execBrimTime (s : State) : Host.Outcome State Fault Refusal := .next (s.brimStep s.arg.n)

/-! ### The deadline (R72) -/

/-- Is the deadline comparator due to fire? A debug halt does not hold it (R75). -/
def State.deadlineDue (s : State) (core : Nat) : Bool :=
  let r := (s.tile core).blk.lr
  r.gang.isSome && r.started && !r.dlnFired && r.dln != 0xFFFFFFFFFFFFFFFF && decide (r.dln.toNat ≤ (s.timeAt core).toNat) &&
    !(s.tile core).vol.switched

/-- What D does to a context (R72): after DONE its wait ends and it does not count as unfinished; after BRIMX it does, unless
what it waited for had come before (R412). What the array still has to do for it is waited for at completion (R224). -/
def Ctx.atDeadline (c : Ctx) (settled : Bool) : Ctx :=
  match c.run with
  | .ready | .stalled | .waiting _ => c.halt
  | .ending brimx => { c with run := if brimx && !settled then .stopped false else .idle }
  | _ => c

/-- Every context of a tile at D. -/
def Tile.atDeadline (t : Tile) : Tile := (List.range 8).foldl (fun x c => x.modCtx c fun k => k.atDeadline (t.settled c)) t

/-- DEADLINE (R72, R392): at tile `n`; the brim comparator of the same launch fires no later. -/
def execDeadlineTime (s : State) : Host.Outcome State Fault Refusal :=
  let core := s.arg.n
  .next (if s.deadlineDue core then
    let s := if (s.tile core).blk.lr.brimFired then s else s.fireBrim core
    (List.range 8).foldl (fun s c => s.dropMisses core c) (s.modTile core fun t =>
      (t.atDeadline.modLr fun r => { r with dlnFired := true }).modVol fun v => { v with replay := v.replay.map (fun _ => []) })
  else s)

/-- The switch time that has come to a tile is reached (R76). -/
def State.switchDue (s : State) (core : Nat) : Bool :=
  match (s.tile core).vol.switchAt with
  | some t => decide (t.toNat ≤ (s.timeAt core).toNat)
  | none => false

/-! ### Fatal reports and forced brims (R392, R428, R468) -/

/-- The tiles of a launch's rectangle get a class 0 packet of the command processor (R302). -/
def State.tellTiles (s : State) (k : Gang) (m : SysMsg) : State := k.tiles.foldl (fun s t => s.emit .cpx (.pool t) 0 0 (.sys m) 0 0 none) s

/-- Force brim for a launch (R392): B is the current time, D is B + W, and class 0 packets take them to its tiles, if it stands on
any; nothing where B has passed. -/
def State.forceBrim (s : State) (g : Nat) : State :=
  match s.gang? g with
  | none => s
  | some k =>
    if s.time.toNat < k.b.toNat then
      let s' := s.modGang g fun k => { k with b := s.time, d := s.time + k.lrec.w }
      if (k.state = .placed ∧ !k.loaded) ∨ k.state = .switchedOut then s' else s'.tellTiles k (.brim s.time (s.time + k.lrec.w))
    else s

/-- FATAL_REPORT (R428): the command processor takes its oldest report. -/
def execFatalReport (s : State) : Host.Outcome State Fault Refusal :=
  .next (match s.cp.reports with
  | [] => s
  | (g, w, tra) :: r =>
    if s.cp.hung then s
    else
      let s := { s with cp := { s.cp with reports := r } }
      (s.modGang g fun k => { k with fatals := k.fatals + 1, firstFatal := k.firstFatal.or (some (w, tra)) }).forceBrim g)

/-- FORCED_BRIM_WRITE (R392): the class 0 packet `i` writes the launch's new B and D into tile `n`, which logs it. -/
def execForcedBrimWrite (s : State) : Host.Outcome State Fault Refusal :=
  let core := s.arg.n
  .next (if !s.admits core then s else match s.arrival (.pool core) with
  | none => s
  | some p => match p.body with
    | .sys (.brim b d) => ((s.dropPkt p.id).modTile core fun t => t.modLr fun r => { r with brt := b, dln := d }).logEffect s core .rsu 0 rsuReady [] (some p)
    | _ => s)

/-! ### Parked contexts and tasks (R50 to R53, R169, R310) -/

/-- A context of a core waits in a PARK whose wake time has come (R169). -/
def State.wakeDue (s : State) (core c : Nat) : Bool :=
  match ((s.tile core).ctx c).run with
  | .waiting (.park w len) => s.waitOver core c (.park w len) && s.admits core
  | _ => false

/-- PARK_WAKE_TIME (R169): context `i` of core `n` reaches its wake time; logged (R391, R438). -/
def execParkWakeTime (s : State) : Host.Outcome State Fault Refusal :=
  let core := s.arg.n
  .next (if s.wakeDue core s.arg.i then
      (s.modTile core fun t => t.modCtx s.arg.i Ctx.unpark).logEffect s core .rsu (s.arg.i % 8) rsuReady [] none
    else s)

/-- The conditions of R53 for a context of a core. -/
def State.settled (s : State) (core c : Nat) : Bool := (s.tile core).settled c

/-- A context is idle, a wait of R53 that has ended counted. -/
def State.resting (s : State) (core c : Nat) : Bool :=
  match ((s.tile core).ctx c).run with
  | .idle => true
  | .ending _ => s.settled core c
  | _ => false

/-- The lowest-numbered free context; after its wrap-up a context takes no task (R412). -/
def State.freeCtx (s : State) (core : Nat) : Option Nat :=
  (List.range (s.tile core).nctx).find? (fun c => s.resting core c && !((s.tile core).ctx c).diverted)

/-- The registers of a task that starts (R51): entry, arguments g1 to g7, and g62; no trap and no upcall is open (R168), and the
monitor is disarmed (R297). -/
def Ctx.start (c : Ctx) (entry : Word) (args : List Nat) (top : Nat) : Ctx :=
  let c := { c with pc := entry, g := Vector.replicate 64 0, p := (Vector.replicate 8 0).set 0 0xFFFFFFFF, run := .ready, relNext := none, marm := false
                    trc := setFld c.trc 9 9 0, ups := setFld c.ups 7 0 0 }
  (((List.range 7).zip args).foldl (fun c e => c.wg (BitVec.ofNat 6 (e.1 + 1)) (BitVec.ofNat 64 e.2)) c).wg 62 (BitVec.ofNat 64 top)

/-- A task starts on a context (R50, R51), on a tile at rest without the locks of older bindings (R268): an odd entry, or one at or above XB, is an instruction-fetch trap. -/
def State.startTask (s : State) (core c : Nat) (entry : Nat) (args : List Nat) : State :=
  let s := s.modTile core fun t => let t := t.unbind; t.modCtx c fun x => x.start (BitVec.ofNat 64 entry) args (t.stackTop c)
  if entryOk (s.tile core).blk.lr.xb entry then s
  else (s.modTile core Tile.countUnit).takeTrap core c causeFetch (BitVec.ofNat 64 entry)

/-- Take a waiting SPAWN record from where it stands. -/
def Tile.takeHeld (t : Tile) : Held → Tile
  | .queue i => t.modVol fun v => { v with taskQ := v.taskQ.eraseIdx i }
  | .slot c k => t.clearSlot c k

/-- The lowest-numbered free context of a core takes the oldest task (R310). -/
def State.takeTask (s : State) (core : Nat) : State :=
  let t := s.tile core
  match s.freeCtx core, t.nextSpawn with
  | some c, some h =>
    let (_, bs) := t.peek s.fresh t.vol.taskQ h
    let ws := (List.range 8).map (fun i => leNat ((bs.drop (4 * i)).take 4))
    (s.modTile core fun t => t.takeHeld h).startTask core c (ws.headD 0) (ws.drop 1)
  | _, _ => s

/-- TASK_START (R51, R52, R310): at core `n`, released to its contexts (R48), the lowest-numbered free context takes the oldest task,
and the log says so (entry 21). The brim comparator fires first where it is due (R392). -/
def execTaskStart (s : State) : Host.Outcome State Fault Refusal :=
  let core := s.arg.n
  let s := s.brimNow core
  let t := s.tile core
  .next (if !s.alive core || t.vol.halted || !s.unheld core || !t.blk.lr.started || (s.freeCtx core).isNone || t.nextSpawn.isNone then s
  else (s.takeTask core).addEffect s core { s.record core .rsu (((s.freeCtx core).getD 0)) false [] none with aux := rsuTask })

end Sys2Proof.Machine
end

