-- ==== Sys2Proof/Machine/Recovery.lean ====
section
/-! DEFINITION. Checkpoint boundaries (R143, R400, R435 to R439), detection (R430, R431) and repair (R358, R440 to R446).
An event that is not due changes nothing. -/

namespace Sys2Proof.Machine

/-! ### Boundaries (R435) -/

/-- The arrival number of what waits at an NI. -/
def Spill.anum : Spill → BitVec 32
  | .notice n => n.anum
  | .msg m => m.anum
  | .pkt _ => 0

/-- Insert by the arrival number, `base` the next number of the tile. -/
def insertSpill (base : BitVec 32) (m : Spill) : List Spill → List Spill
  | [] => [m]
  | k :: r => if (base - k.anum).toNat < (base - m.anum).toNat then m :: k :: r else k :: insertSpill base m r

/-- What waits in the class 1 to 5 queues and the task queue, in arrival-number order (R314). -/
def Tile.queued (t : Tile) : List Spill :=
  (t.vol.notices.map Spill.notice ++ (t.vol.rq ++ t.vol.taskQ).map Spill.msg).foldl (fun l m => insertSpill t.blk.ni.anum m l) []

/-- What a spill ring holds goes back into the queues, with its arrival number (R314). -/
def Tile.requeue (t : Tile) : Spill → Tile
  | .msg m => t.modVol fun v => if m.spawn then { v with taskQ := v.taskQ ++ [m] } else { v with rq := v.rq ++ [m] }
  | .notice n => t.modVol fun v => { v with notices := v.notices ++ [n] }
  | .pkt _ => t

/-- The queues of a tile are emptied. -/
def Tile.unqueued (t : Tile) : Tile := t.modVol fun v => { v with rq := [], taskQ := [], notices := [] }

/-- A packet that stands for something a record keeps. -/
def keptPkt (core : Nat) (src : Owner) (cls seq : Nat) (b : Body) : Pkt :=
  { id := 0, src := src, dst := .pool core, cls := cls, seq := seq, body := b, stage := .arrived, pcn := 0, mask := 0, bytes := 0, rel := none }

/-- The re-log records of R314, in arrival-number order; `aux` 1 marks them. -/
def State.relog (s : State) (core : Nat) : List LogRec :=
  let mk := fun (c : Nat) (d : List Byte) (p : Pkt) => { s.record core .msg c false d (some p) with aux := 1, durable := true }
  (s.tile core).queued.filterMap (fun m => match m with
    | .notice n => some (mk (n.ctx % 8) n.bytes (keptPkt core (.pool core) 1 0 (.notice n)))
    | .msg m => some (mk (m.tcx % 8) m.payload (keptPkt core (.pool m.src) m.cls m.seq (.msg m)))
    | .pkt _ => none)

/-- Lines that the copier sends: those marked in DLB, and all of every accumulator with DRT (R143). -/
def Tile.dirty (t : Tile) : List Nat :=
  (List.range 16384).filter (fun n => t.blk.ct.dlb.getLsbD n ||
    (List.range t.nacc).any (fun k => (t.blk.arr.acc k).drt && decide (t.accAddr k / 128 ≤ n) && decide (n < t.accAddr k / 128 + 512)))

/-- The copier's clearing: DLB, DCNT and DRT, and the interval timer loaded (R400). -/
def Tile.copied (t : Tile) : Tile :=
  (t.modCt fun k => { k with dlb := 0, dcnt := 0, ivt := BitVec.ofNat 32 (t.blk.lr.ivl * 1500) }).modArr fun a =>
    { a with accs := a.accs.map (fun x => { x with drt := false }) }

/-- Answer the senders of records that are not yet durable. -/
def State.answerRecs (s : State) (core : Nat) (l : List LogRec) : State :=
  l.foldl (fun s r => match r.answer, r.pkt with
    | some b, some p => if r.durable then s else s.emit (.pool core) p.src 6 0 b 0 0 none
    | _, _ => s) s

/-- No fen store serves a tile: its buddy has failed, or its buddy position is a twin's or a twinning host's (R442). -/
def State.noFen (s : State) (core : Nat) : Bool :=
  (s.tile (buddyOf core)).vol.failed || s.mg.twins.any (fun e => e.1 == buddyOf core || e.2 == buddyOf core)

/-- The drain that comes before the cut (R435): no array command and no accumulator in flight, and no packet of the tile in its
egress hold. -/
def State.drained (s : State) (core : Nat) : Bool :=
  let a := (s.tile core).blk.arr
  a.queue.isEmpty && a.accs.toList.all (fun x => !x.ifl) && !s.net.any (fun p => p.src == .pool core && p.stage == .held)

/-- The class 7 packet of a tile's checkpoint copies; where it is, if it is on its way. -/
def State.staging (s : State) (core : Nat) : Option Pkt := s.net.find? (fun p => p.src == .pool core && p.body == .stage)
/-- It has arrived at the buddy. -/
def State.staged (s : State) (core : Nat) : Option Pkt := (s.staging core).filter (fun p => p.stage == .arrived)
/-- The checkpoint copies leave for the buddy over class 7 (R302, R435, R437). -/
def State.stage (s : State) (core : Nat) : State := s.emit (.pool core) (.pool (buddyOf core)) 7 0 .stage 0 0 none

/-- Cut and staging (R435): the old interval ends with a CUT record, the new one begins with the re-log records, and the
dirty lines and the state block go to the buddy's staging. -/
def State.cut (s : State) (core : Nat) : State :=
  let l := s.relog core
  let t := s.tile core
  let lines := t.dirty.map (fun n => (n, Mem.bytes t.pool (128 * n) 128))
  let t := t.copied.tally 0x0E t.blk.hold (1 + l.length)
  let rec_ := { s.record core .cut 0 false [] none with durable := true }
  ((s.setTile core (t.modVol fun v => { v with phase := .staging })).modFen core fun f =>
    { f with oldLog := f.oldLog ++ f.log ++ [rec_], log := l, stagedLines := lines, stagedBlock := t.blk }).stage core

/-- A cut whose copies never left the tile is none (R431, R435): the log goes on as it was. -/
def Fen.uncut (f : Fen) : Fen :=
  { f with oldLog := [], log := f.oldLog.dropLast ++ f.log.filter (fun r => !(r.kind == .msg && r.aux == 1)), stagedLines := [], stagedBlock := .zero }

/-- The buddy's commit (R435): staged lines by their number, the staged block, and the old log freed. -/
def Fen.commit (f : Fen) : Fen :=
  { f with
    image := f.stagedLines.foldl (fun m e => Mem.write m (128 * e.1) e.2) f.image
    block := f.stagedBlock
    stagedLines := [], stagedBlock := .zero, oldLog := [], commitFlag := false }

/-- A core that a trigger of R400 can stop: resident, not halted. -/
def State.counting (s : State) (core : Nat) : Bool := s.alive core && !(s.tile core).vol.halted && (s.tile core).blk.lr.started

/-- INTERVAL_TIMER_EXPIRY (R400): IVT of tile `n` reaches 0. -/
def execIntervalTimerExpiry (s : State) : Host.Outcome State Fault Refusal :=
  let core := s.arg.n
  .next (if s.counting core then (s.modTile core fun t => t.modCt fun k => { k with ivt := 0 }).startBoundary core else s)

/-- Dirty lines of a tile, 512 for each dirty accumulator (R143). -/
def Tile.dirtyCount (t : Tile) : Nat :=
  t.blk.ct.dcnt.toNat + 512 * ((List.range t.nacc).filter (fun k => (t.blk.arr.acc k).drt)).length

/-- A trigger of R400 stands that no event has to bring: the dirty count, or the log, has reached its limit. -/
def State.mustCut (s : State) (core : Nat) : Bool :=
  s.protects core && s.counting core &&
    (decide (4096 ≤ (s.tile core).dirtyCount) || decide (logLimit ≤ logBytes (s.fen core).log))

/-- DIRTY_COUNT_LIMIT (R143, R400): at tile `n`. -/
def execDirtyCountLimit (s : State) : Host.Outcome State Fault Refusal :=
  let core := s.arg.n
  .next (if s.counting core && 4096 ≤ (s.tile core).dirtyCount then s.startBoundary core else s)

/-- ARRIVAL_LOG_THRESHOLD (R435): the interval's log of tile `n` holds 90% of the log's bytes; ingress is held until the cut. -/
def execArrivalLogThreshold (s : State) : Host.Outcome State Fault Refusal :=
  let core := s.arg.n
  .next (if s.alive core && s.logs core && logLimit ≤ logBytes (s.fen core).log then s.startBoundary core else s)

/-- STAGING_ACKNOWLEDGED (R435) at tile `n`: after the trigger, once the tile is drained, the cut and the staging; then, when its
copies have arrived, the buddy's acknowledgement, at which the tile resumes. -/
def execStagingAcknowledged (s : State) : Host.Outcome State Fault Refusal :=
  let core := s.arg.n
  .next (if (s.tile core).vol.failed then s
  else match (s.tile core).vol.phase with
  | .triggered => if s.drained core then s.cut core else s
  | .staging => (match s.staged core with
    | none => s
    | some p => ((s.dropPkt p.id).modTile core fun t => t.modVol fun v => { v with phase := .committing }).modFen core fun f => { f with commitFlag := true })
  | _ => s)

/-- The packets of records that are gone. -/
def State.dropLogs (s : State) (core : Nat) (l : List LogRec) : State :=
  { s with net := s.net.filter (fun p => !(p.src == .pool core && (match p.body with | .log rid => l.any (fun r => r.rid == rid) | _ => false))) }

/-- A boundary that was owed starts (R400, R435). -/
def State.payBoundary (s : State) (core : Nat) : State := if (s.tile core).vol.owed then s.startBoundary core else s

/-- The boundaries after an exchange are committed together, once the checkpoints of all its participants stand in staging: before
that a failure takes all of them back to the boundaries before it (R227, R443). A tile that still owes its boundary commits the one
before it. -/
def State.mayCommit (s : State) (core : Nat) : Bool :=
  !(s.cluster (clusterOf core)).post || (s.tile core).vol.owed || (List.range 16).all (fun p =>
    let t := s.tile (tileAt (clusterOf core) p)
    !t.vol.failed && t.vol.bounded && t.vol.replay.isNone)

/-- COMMIT (R435): the buddy of tile `n` commits. -/
def execCommitBoundary (s : State) : Host.Outcome State Fault Refusal :=
  let core := s.arg.n
  .next (match (s.tile core).vol.phase with
  | .committing =>
    if !s.mayCommit core then s
    else
      let l := (s.fen core).oldLog
      ((((s.answerRecs core l).dropLogs core l).modFen core Fen.commit).modCluster (clusterOf core) (fun c => { c with post := c.post && (s.tile core).vol.owed })).modTile core (fun t =>
        t.modVol fun v => { v with phase := .none }) |>.payBoundary core
  | _ => s)

/-- FULL_BOUNDARY (R437): tile `n` copies its whole pool and state block to its buddy's image over class 7, and, when they have
arrived there, commits. -/
def execFullBoundary (s : State) : Host.Outcome State Fault Refusal :=
  let core := s.arg.n
  .next (if (s.tile core).vol.phase ≠ .full ∨ (s.tile core).vol.failed ∨ s.noFen core ∨ !s.drained core then s
  else match s.staging core with
  | none => s.stage core
  | some p =>
    if p.stage ≠ .arrived then s
    else
      let old := (s.fen core).oldLog ++ (s.fen core).log
      let l := s.relog core
      let t := (((s.tile core).copied.tally 0x0D (s.tile core).blk.hold 1).tally 0x0E (s.tile core).blk.hold l.length)
      ((((((s.dropPkt p.id).answerRecs core old).dropLogs core old).setTile core (t.modVol fun v => { v with phase := .none, saved := false })).modFen core fun _ =>
        { Fen.reset with image := t.pool, block := t.blk, log := l })).payBoundary core)

/-- The first record that is not yet durable and whose packet has arrived becomes so; that record. -/
def ackFirst (there : Nat → Bool) : List LogRec → Option (LogRec × List LogRec)
  | [] => none
  | r :: rs => if r.durable || !there r.rid then (ackFirst there rs).map (fun e => (e.1, r :: e.2)) else some (r, { r with durable := true } :: rs)

/-- A record of a tile's log has arrived at the buddy (R439). -/
def State.logged (s : State) (core rid : Nat) : Bool :=
  s.net.any (fun p => p.src == .pool core && p.dst == .pool (buddyOf core) && p.body == .log rid && p.stage == .arrived)

/-- LOG_RECORD_ACK (R328, R439): the buddy acknowledges the oldest record of tile `n` that has arrived there, and the NI answers the
sender. -/
def execLogRecordAck (s : State) : Host.Outcome State Fault Refusal :=
  let core := s.arg.n
  let f := s.fen core
  .next (if !s.alive core then s
  else match ackFirst (s.logged core) f.oldLog with
  | some (r, l) => ((s.answerRecs core [r]).dropLogs core [r]).modFen core fun f => { f with oldLog := l }
  | none => match ackFirst (s.logged core) f.log with
    | some (r, l) => ((s.answerRecs core [r]).dropLogs core [r]).modFen core fun f => { f with log := l }
    | none => s)

/-! ### Detection (R430, R431, R436, R445) -/

/-- The site that carries a tile. -/
def State.siteOf (s : State) (core : Nat) : Nat := (s.posMap (clusterOf core) (posOf core)).2

/-- A double fault (R445): every tile that runs the launch stops as at D, with no wrap-up. -/
def State.doubleFault (s : State) (g : Nat) : State :=
  match s.gang? g with
  | none => s
  | some k =>
    (k.tiles.filter (fun t => (s.tile t).blk.lr.gang == some g)).foldl (fun s t => s.modTile t fun x =>
      (x.atDeadline.modVol fun v => { v with replay := none }).modLr fun r => { r with dlnFired := true, brimFired := true })
      (s.modGang g fun k => { k with failed := true })

/-- Double fault of the launch that a tile runs. -/
def State.doubleFaultAt (s : State) (core : Nat) : State :=
  match (s.tile core).blk.lr.gang with
  | none => s
  | some g => s.doubleFault g

/-- The class 7 packets of a tile are for nothing: their fen store is lost. -/
def State.dropClass7 (s : State) (w : Nat) : State := { s with net := s.net.filter (fun p => !(p.src == .pool w && p.cls == 7)) }

/-- A tile loses its checkpoint and log (R436): what it holds back is acknowledged, and it is unprotected. During its own
repair that is a double fault (R445, R446). -/
def State.unprotect (s : State) (w : Nat) : State :=
  let v := (s.tile w).vol
  let s' := ((s.answerRecs w ((s.fen w).oldLog ++ (s.fen w).log)).dropClass7 w).modFen w fun _ => { Fen.reset with unprotected := true }
  if s.mg.repairs.contains w then s'.doubleFaultAt w
  else if v.failed then s'
  else s'.modTile w fun t => t.modVol fun v => { v with phase := if v.phase == .full then .full else .none, owed := false }

/-- An arrival whose record is lost comes again (R439): its sender has not been answered, and sends it once more. That goes for a class 0
packet of the command processor, a domain's completion, and a probe's result; every other sender retransmits on its own. -/
def State.comesAgain (s : State) (core : Nat) (r : LogRec) : State :=
  match r.kind, r.pkt, r.probe, (s.tile core).blk.lr.gang with
  | .rsu, some p, _, _ => if p.src == .cpx then { s with net := s.net ++ [{ p with stage := .queued }] } else s
  | .bar, _, some p, some g => s.modGang g fun k => { k with probes := Tbl.put k.probes (r.aux % 16) ({ p with left := [] } :: Tbl.get k.probes (r.aux % 16) []) }
  | .bar, _, none, some g => s.modGang g fun k => k.setDomain r.aux { k.domain r.aux with left := core :: (k.domain r.aux).left }
  | _, _, _, _ => s

/-- A tile has no fen store from now on (R442): it owes no boundary, and runs unprotected. -/
def State.forgo (s : State) (w : Nat) : State :=
  (s.unprotect w).modTile w fun t => t.modVol fun v => if v.failed then v else { v with phase := .none, owed := false, saved := false }

/-- Packets that a stopped tile has not sent are discarded (R431), and with them the log records and checkpoint copies that they
carry. -/
def State.discardUnsent (s : State) (core : Nat) : State :=
  let unsent := fun (p : Pkt) => p.src == .pool core && (p.stage == .queued || p.stage == .held)
  let lost := (s.net.filter unsent).filterMap (fun p => match p.body with | .log rid => some rid | _ => none)
  let cut := (s.staging core).any unsent && (s.tile core).vol.phase == .staging
  let gone := ((s.fen core).oldLog ++ (s.fen core).log).filter (fun r => lost.contains r.rid && !r.durable)
  let s := gone.reverse.foldl (fun s r => s.comesAgain core r) s
  { s with net := s.net.filter (fun p => !unsent p) }.modFen core fun f =>
    let f := { f with oldLog := f.oldLog.filter (fun r => !lost.contains r.rid || r.durable), log := f.log.filter (fun r => !lost.contains r.rid || r.durable) }
    if cut then f.uncut else f

/-- Sites of a physical cluster that are out of service (R19). -/
def State.badSites (s : State) (p : Nat) : List Nat := Tbl.get s.mg.badSites p []
/-- A site of a physical cluster leaves service. -/
def State.badSite (s : State) (p site : Nat) : State :=
  { s with mg := { s.mg with badSites := Tbl.put s.mg.badSites p (if (s.badSites p).contains site then s.badSites p else site :: s.badSites p) } }

/-- A tile stops on a detection event (R431): packets that it has not sent are discarded, its site leaves service, and
its buddy position's partner loses its protection. -/
def State.failTile (s : State) (core : Nat) : State :=
  let s := (s.discardUnsent core).badSite (s.pcnOf (clusterOf core)) (s.siteOf core)
  let s := { s with mg := { s.mg with repairs := s.mg.repairs.filter (fun t => t != core) } }
  (s.modTile core fun t => t.modVol fun v => { v with failed := true, detected := false, replay := none }).unprotect (partnerOf core)

/-- The tiles that run on a tile's site: itself, its host and its twins (R442). -/
def State.siteTiles (s : State) (core : Nat) : List Nat :=
  let host := (Tbl.look s.mg.twins core).getD core
  host :: (s.mg.twins.filter (fun e => e.2 == host)).map (fun e => e.1)

/-- A site fails: every tile on it that has not stopped yet does. -/
def State.failSite (s : State) (core : Nat) : State :=
  (s.siteTiles core).foldl (fun s t => if (s.tile t).vol.failed && !(s.tile t).vol.detected then s else s.failTile t) s

/-- Code of a fault of a cluster unit or router among a cluster's sites out of service. -/
def unitFault : Nat := 17

/-- Every tile of a cluster stops, and the cluster is out of service (R19). -/
def State.failCluster (s : State) (k : Nat) : State :=
  let s := s.badSite (s.pcnOf k) unitFault
  (List.range 16).foldl (fun s p => s.failTile (tileAt k p)) s

/-- COLUMN_RESIDUE_MISMATCH (R433): the started command at place `j` of the queue of tile `n` is run again; `b` says that the second
run passes, so that its results are written; else the cluster unit is faulty, and its cluster stops (R19, R431). -/
def execColumnResidueMismatch (s : State) : Host.Outcome State Fault Refusal :=
  let core := s.arg.n
  .next (match completes (s.tile core).blk.arr.queue s.arg.j with
  | none => s
  | some e =>
    if (s.tile core).vol.failed then s
    else if s.arg.b then
      let s := (s.modTile core fun t => t.writeCmd e).retire core e
      { s with mg := { s.mg with softErrors := s.mg.softErrors + 1 } }
    else s.failCluster (clusterOf core))

/-- A soft error flips a bit of the pool, and its word's parity no longer fits, or fits again (R229). -/
def Tile.strike (t : Tile) (bit : Nat) : Tile :=
  let w := bit / 64
  { t with
    pool := Mem.write t.pool (bit / 8) [Mem.read t.pool (bit / 8) ^^^ (1 <<< (bit % 8))]
    par := if t.par.contains w then t.par.filter (fun k => k != w) else w :: t.par }

/-- DETECTION_EVENT (R19, R229, R431, R445): a check fails at tile `n`; with `j` not 0 in its router or selector. With `b` set
an uncorrectable error has struck the fen store that holds tile `n`'s checkpoint (R436, R445). With `nums` given, nothing is detected
yet: soft errors flip those bits of the tile's pool. -/
def execDetectionEvent (s : State) : Host.Outcome State Fault Refusal :=
  let core := s.arg.n
  .next (if !isTile core then s
  else if !s.arg.nums.isEmpty then s.modTile core fun t => s.arg.nums.foldl (fun t b => t.strike (b % 2 ^ 24)) t
  else if s.arg.b then
    if (s.tile core).vol.failed || s.mg.repairs.contains core then (s.modFen core fun _ => { Fen.reset with unprotected := true }).doubleFaultAt core
    else (s.unprotect core).modTile core fun t => t.modVol fun v => { v with phase := if t.blk.lr.gang.isSome && !s.noFen core then .full else v.phase }
  else if s.arg.j ≠ 0 then s.failCluster (clusterOf core)
  else s.failSite core)

/-- The tile whose core runs a tile's site (R442). -/
def State.hostOf (s : State) (core : Nat) : Nat := (Tbl.look s.mg.twins core).getD core
/-- The logical cluster that a physical cluster carries. -/
def State.carriedBy (s : State) (p : Nat) : Option Nat :=
  match s.mg.cause.find? (fun e => e.2.2 == p) with
  | some e => some e.1
  | none => if p < 1920 && (Tbl.look s.mg.cause p).isNone then some p else none
/-- A site of a physical cluster carries no position: it is watched all the same (R25). -/
def State.siteIdle (s : State) (p site : Nat) : Bool :=
  decide (p < 2016 ∧ site < 17) && (match s.carriedBy p with
    | none => true
    | some k => (List.range 16).all (fun q => (s.posMap k q).2 != site))

/-- CORE_HEARTBEAT (R430): core `n` sends its heartbeat; with `b` site `i` of physical cluster `n` does, which carries no position. -/
def execCoreHeartbeat (s : State) : Host.Outcome State Fault Refusal :=
  .next (if s.arg.b then
    (if s.siteIdle s.arg.n s.arg.i then { s with mg := { s.mg with silent := s.mg.silent.filter (fun e => e != 32 * s.arg.n + s.arg.i) } } else s)
  else if (s.tile s.arg.n).vol.failed then s else s.modTile (s.hostOf s.arg.n) fun t => t.modVol fun v => { v with beat := true })

/-- WATCHDOG_EXPIRY (R25, R430): the watchdog of the site of tile `n` ends a period; without a heartbeat in it the site has failed.
With `b` it is that of site `i` of physical cluster `n`, which carries no position. -/
def execWatchdogExpiry (s : State) : Host.Outcome State Fault Refusal :=
  let core := s.arg.n
  .next (if s.arg.b then
    (if !s.siteIdle core s.arg.i then s
    else if s.mg.silent.contains (32 * core + s.arg.i) then s.badSite core s.arg.i
    else { s with mg := { s.mg with silent := (32 * core + s.arg.i) :: s.mg.silent } })
  else if !isTile core ∨ (s.tile core).vol.failed then s
  else if (s.tile (s.hostOf core)).vol.beat then s.modTile (s.hostOf core) fun t => t.modVol fun v => { v with beat := false }
  else s.failSite core)

/-- Bytes of code that a TSC or rim core's firmware may take (entry 13). -/
def firmwareXb : Nat := 0x100000

/-- A TSC or rim core starts its firmware: context 0 at offset 0, the memory as it stands (entry 13). -/
def bootTile (core : Nat) (pool : Mem) : Tile :=
  let t := { Tile.reset core with pool := pool }
  (t.modLr fun r => { r with xb := BitVec.ofNat 21 firmwareXb, part := 1, started := true }).modCtx 0 fun c => { c with run := .ready }

/-- Restart the TSC of a cluster (R431): its request queue is kept, and requests that it had taken are raised again. -/
def State.restartTsc (s : State) (k : Nat) : State :=
  (s.setTile (tscBase + k) (bootTile (tscBase + k) (s.tile (tscBase + k)).pool)).modCluster k fun c =>
    { c with reqs := c.reqs.map (fun r => { r with taken := false }), tscBeat := true }

/-- TSC_WATCHDOG_EXPIRY (R430, R431): the watchdog of the TSC of cluster `n` ends a period. -/
def execTscWatchdogExpiry (s : State) : Host.Outcome State Fault Refusal :=
  let k := s.arg.n
  .next (if (s.cluster k).tscBeat then s.modCluster k fun c => { c with tscBeat := false } else s.restartTsc k)

/-! ### Repair (R441 to R443) -/

/-- Write VLD of a logical cluster (R441). -/
def State.setVld (s : State) (k : Nat) (v : Bool) : State := { s with mg := { s.mg with cause := Tbl.put s.mg.cause k (v, s.pcnOf k) } }

/-- A field is ready (R40). -/
def State.fieldReady (s : State) (f : Nat) : Bool := if f < 64 then s.mg.rdyfa.getLsbD f else s.mg.rdyfb.getLsbD (f - 64)

/-- East and west partner clusters of a logical cluster (R22). -/
def eastOf (k : Nat) : Nat := k / 48 * 48 + (k % 48 + 6) % 48
def westOf (k : Nat) : Nat := k / 48 * 48 + (k % 48 + 42) % 48

/-- Hops from the physical cluster of a logical one to another physical cluster, measured as in R359. -/
def State.hopsOn (s : State) (k p : Nat) : Nat := walk s.mg.rowOvr k (4 * pcnX p) (4 * pcnY p) (4 * pcnX (s.pcnOf k)) (4 * pcnY (s.pcnOf k)) 255

/-- A spare cluster can carry 16 positions: its unit is sound, and at most one of its sites is out of service (R19). -/
def State.sound (s : State) (p : Nat) : Bool := !(s.badSites p).contains unitFault && decide ((s.badSites p).length ≤ 1)
/-- The position map of a spare cluster that takes over: site 16 stands in for a site out of service (R19). -/
def State.posFor (s : State) (p : Nat) : Tbl (Nat × Nat) := ((s.badSites p).filter (fun b => b < 16)).map (fun b => (b, (b, 16)))

/-- The spare cluster that R441 chooses for a logical cluster. -/
def State.spareFor (s : State) (k : Nat) : Option Nat :=
  let out := [s.pcnOf k, s.pcnOf (eastOf k), s.pcnOf (westOf k)].map domainOf
  let free := ((List.range 96).map (fun i => 1920 + i)).filter (fun p =>
    !s.mg.spareUsed.contains p && s.sound p && !out.contains (domainOf p) && !s.mg.domainsOff.contains (domainOf p) && s.fieldReady (fieldOf p))
  free.foldl (fun (best : Option Nat) p => match best with
    | none => some p
    | some q => if s.hopsOn k p < s.hopsOn k q then some p else some q) none

/-- The host of a twin (R442): the lowest position that is healthy and neither hosts a twin nor is one. -/
def State.hostFor (s : State) (core : Nat) : Option Nat :=
  ((List.range 16).map (tileAt (clusterOf core))).find? (fun t =>
    t != core && !(s.tile t).vol.failed && !s.mg.repairs.contains t && !s.mg.twins.any (fun e => e.1 == t || e.2 == t))

/-- Who carries a failed tile from now on. -/
inductive Carrier where
  | site
  | spare (pcn : Nat)
  | twin (host : Nat)
  | none
  deriving DecidableEq, Repr

def State.carrier (s : State) (core : Nat) : Carrier :=
  let k := clusterOf core
  let bad := s.badSites (s.pcnOf k)
  if !bad.contains unitFault && !bad.contains 16 && (List.range 16).all (fun p => (s.posMap k p).2 != 16) then .site
  else match s.spareFor k with
  | some p => .spare p
  | none => if bad.contains unitFault then .none else match s.hostFor core with
    | some h => .twin h
    | none => .none

/-- The translations of a launch's addresses (R463). -/
def LRec.space (r : LRec) : CpSpace := { asid := r.asid, pasid := r.pasid }
/-- Where `n` bytes at an address of the command processor lie (R232, R462): device (true) or host memory, and the physical address. One
range that the host has mapped for the ASID or PASID holds them all; `none` where none does (entry 12). -/
def State.cpPlace (s : State) (v : CpSpace) (a : Word) (n : Nat) : Option (Bool × Nat) :=
  let look := fun (sys : Bool) (id va : Nat) =>
    (s.cp.maps.find? (fun m => m.sys == sys && m.id == id && m.va ≤ va && va + n ≤ m.va + m.size)).map (fun m => m.pa + (va - m.va))
  match fld a 63 62 with
  | 2 => if fld a 61 48 = 0 then (look false v.asid.toNat (fld a 47 0)).bind (fun p => if p + n ≤ deviceEnd then some (true, p) else none) else none
  | 3 => if fld a 61 57 = 0 then (look true v.pasid.toNat (fld a 56 0)).map (fun p => (false, p)) else none
  | _ => none
/-- Bytes of a save area. -/
def saveSize : Nat := 0x220000
/-- The save area of a rank of a launch, by its physical address in device memory (R242): pinned, and written without translation. -/
def Gang.area (k : Gang) (rank : Nat) : Option Nat :=
  let a := k.lrec.savb + BitVec.ofNat 64 (saveSize * rank)
  if fld a 63 62 = 2 ∧ fld a 61 48 = 0 ∧ fld a 47 0 + saveSize ≤ deviceEnd then some (fld a 47 0) else none

/-- Part of a memory, from an address upward. -/
def Mem.part (m : Mem) (a n : Nat) : Mem := (m.filter (fun e => a ≤ e.1 && e.1 < a + n)).map (fun e => (e.1 - a, e.2))

/-- A tile of a launch as its save area holds it (R242, R314, R448): block, pool, and queues rebuilt from the spill ring. It owes a full
boundary, unless a twinning leaves it without a fen store (R442). -/
def State.savedTile (s : State) (g : Nat) (k : Gang) (rank : Nat) : Option Tile :=
  match Tbl.look s.cp.saves (g * 65536 + rank), k.area rank with
  | some b, some a =>
    let v := { Volatile.reset with
      mapg := s.mg.mgen, decayA := Tbl.get s.rim.decayA b.lr.prt [], decayP := Tbl.get s.rim.decayP b.lr.prt [], phase := .full, saved := true }
    let t : Tile := { pool := s.dev.part (a + 0x10000) 0x200000, par := [], blk := { b with arr := { b.arr with slots := b.arr.slots.map WSlot.stale } }, vol := v }
    some ((Tbl.get s.cp.rings (g * 65536 + rank) []).foldl Tile.requeue t).indexed
  | _, _ => none

/-- A tile of a launch takes what its save area holds, under the launch's B and D (R448), and asks for the lease again if REQ was set
(R227). With `failed` it is the repair of a tile that failed before its full boundary: it has nothing to replay. -/
def State.fromArea (s : State) (g : Nat) (k : Gang) (rank core : Nat) (failed : Bool) : Option State :=
  (s.savedTile g k rank).map fun t =>
    let t := t.modLr fun r => if k.b.toNat < r.brt.toNat then { r with brt := k.b, dln := k.d } else r
    let t := t.modVol fun v => { v with failed := failed, replay := if failed then some [] else none, halted := failed && (s.tile core).vol.halted, phase := if s.noFen core then .none else v.phase }
    let s := (s.setTile core t).modFen core fun f => { f with unprotected := s.noFen core }
    if t.blk.arr.req && (s.cluster (clusterOf core)).holder.isNone then s.grant (clusterOf core) (posOf core) else s

/-- Restore a tile onto its carrier (R150, R435, R436): a commit under way is completed, unless `first` asks for the boundary before an
exchange (R443) and the commit is of the one after it; then the committed image and block are taken, the weight slots are stale, the divert index is rebuilt (R313), and the
log is to be replayed. At the resume of a gang switch the save area stands in, and there is nothing to replay (R448). -/
def State.restore (first : Bool) (s : State) (core : Nat) : State :=
  let t := s.tile core
  if t.blk.lr.gang.isNone then s.setTile core ((Tile.reset core).modVol fun v => { v with failed := true, replay := some [] })
  else if t.vol.saved && t.vol.phase == .full then
    (match t.blk.lr.gang with
    | none => s
    | some g => ((s.gang? g).bind (fun k => s.fromArea g k t.blk.lr.rank core true)).getD (s.doubleFault g))
  else if (s.fen core).unprotected then s.doubleFaultAt core
  else
    let f := if (s.fen core).commitFlag && (!first || t.vol.owed) then (s.fen core).commit else (s.fen core)
    let f := { f with stagedLines := [], stagedBlock := .zero, commitFlag := false }
    let b := f.block
    let v := { Volatile.reset with
      failed := true, halted := t.vol.halted, switchAt := t.vol.switchAt, replay := some (f.oldLog ++ f.log), mapg := t.vol.mapg
      decayA := Tbl.get s.rim.decayA b.lr.prt [], decayP := Tbl.get s.rim.decayP b.lr.prt [] }
    let n : Tile := { pool := f.image, par := [], blk := { b with arr := { b.arr with slots := b.arr.slots.map WSlot.stale } }, vol := v }
    let s := ((s.dropClass7 core).modFen core fun _ => f).setTile core n.indexed
    if b.arr.req && (s.cluster (clusterOf core)).holder.isNone then s.grant (clusterOf core) (posOf core) else s

/-- A relocated cluster unit's schedules are rebuilt from the rows of its 16 tiles (R367). -/
def State.rebuildSchedules (s : State) (k : Nat) : State :=
  let rows := (List.range 16).flatMap (fun p => (s.tile (tileAt k p)).blk.arr.rows.map (fun e => (256 * (e.1 / 16) + 16 * p + e.1 % 16, e.2)))
  s.modCluster k fun c => { c with sched := rows }
/-- A position restored alone has the rows that its cluster unit holds now. -/
def State.liveRows (s : State) (core : Nat) : State :=
  let l := ((s.cluster (clusterOf core)).sched.filter (fun e => e.1 / 16 % 16 == posOf core)).map (fun e => (16 * (e.1 / 256) + e.1 % 16, e.2))
  s.modTile core fun t => t.modArr fun a => { a with rows := l }

/-- Withdraw a failed position's array commands and lease request (R441). -/
def State.withdraw (s : State) (core : Nat) : State :=
  let s := (s.unpinAll core).modTile core fun t => t.modArr fun a => { a with queue := [], req := false }
  if s.holds core then s.nextLease (clusterOf core) else s

/-- OVR entries that a Milliner writes come as pairs of key and port (R354); a key of 2^40 and more names a route-table entry: launch
times 8,192 plus its key in the launch's table (R356). -/
def pairsOf (l : List Nat) : List (Nat × Nat) := (List.range (l.length / 2)).map (fun i => (l.getD (2 * i) 0, l.getD (2 * i + 1) 0))
def ovrOf (l : List Nat) (t : Tbl Nat) : Tbl Nat := (pairsOf l).foldl (fun t e => if e.1 < 2 ^ 40 then Tbl.put t e.1 (e.2 % 8) else t) t
/-- The route tables with the entries rewritten that a Causeway update may write: those that name a fenced cluster (R356), and at the loss of
a power domain all that take traffic around it (R444). -/
def State.routesOf (s : State) (around : Bool) (l : List Nat) : Tbl (Tbl Nat) :=
  s.cp.gangs.map (fun g => (g.1, (pairsOf l).foldl (fun t e =>
    if 2 ^ 40 ≤ e.1 ∧ (e.1 - 2 ^ 40) / 8192 = g.1 ∧ (around ∨ s.fenced (e.1 % 8192 % 2048)) ∧ e.2 ≤ 4 then Tbl.put t (e.1 % 8192) e.2 else t) g.2.routes))

/-- The shadow copy of a Causeway update (R358), written to every router that has power. -/
def State.shadowFor (s : State) (around : Bool) (pcn : Tbl Nat) (pos : Tbl (Tbl (Nat × Nat))) (cores full : List Nat) : Shadow :=
  { pcn := pcn, pos := pos, ovr := ovrOf s.arg.nums s.mg.ovr, routes := s.routesOf around s.arg.nums
    left := (List.range 2016).filter (fun p => !s.mg.domainsOff.contains (domainOf p)), cores := cores, full := full }

/-- MILLINER_REPAIR (R441 to R443, R446): the repair of failed tile `n`: fence, choice of a carrier, restore, and the
rebinding that waits for its Causeway update; `nums` are the OVR and route-table entries that it changes. Repairs of one field run one at
a time. -/
def execMillinerRepair (s : State) : Host.Outcome State Fault Refusal :=
  let core := s.arg.n
  let k := clusterOf core
  .next (if !isTile core ∨ !(s.tile core).vol.failed ∨ (s.tile core).vol.detected ∨ s.mg.shadow.isSome ∨
      s.mg.repairs.any (fun t => Tbl.get s.mg.repairField t 84 == fieldOf (s.pcnOf k)) then s
  else if s.carrier core = .none then s.doubleFaultAt core
  else
    let field := fieldOf (s.pcnOf k)
    let s := s.setVld k false
    let all := (List.range 16).map (tileAt k)
    let exch := s.bracketed k
    let after := (s.cluster k).post
    let go := fun (s : State) (cores full : List Nat) (pcn : Tbl Nat) (pos : Tbl (Nat × Nat)) =>
      let s := cores.foldl (fun s t => (s.withdraw t).modTile t fun x => x.modVol fun v => { v with failed := true }) s
      let s := s.modCluster k fun c => { c with running := none, pre := exch, post := false }
      let s := cores.foldl (State.restore after) s
      let s := if cores.length = 16 && !pcn.isEmpty then s.rebuildSchedules k else cores.foldl State.liveRows s
      let cores := cores.filter (fun t => (s.tile t).vol.replay.isSome)
      { s with mg := { s.mg with
        repairs := s.mg.repairs ++ cores, repairField := cores.foldl (fun t c => Tbl.put t c field) s.mg.repairField
        shadow := some (s.shadowFor false pcn [(k, pos)] cores full) } }
    let here := (s.cluster k).posmap
    match s.carrier core with
    | .none => s
    | .site => go s (if exch then all else [core]) [partnerOf core] [] (Tbl.put here (posOf core) (posOf core, 16))
    | .twin h =>
      let s := (s.forgo (partnerOf h)).forgo (partnerOf core)
      go { s with mg := { s.mg with twins := Tbl.put s.mg.twins core h } } (if exch then all else [core]) [] []
        (Tbl.put here (posOf core) (s.posMap k (posOf h)))
    | .spare p =>
      let s := all.foldl (fun s t => if (s.tile t).vol.failed then s else s.failTile t) s
      let s := s.modCluster k fun c => { Cluster.reset with sched := c.sched, gent := c.gent, posmap := c.posmap }
      let s := { (s.restartTsc k) with mg := { s.mg with spareUsed := s.mg.spareUsed ++ [p], twins := s.mg.twins.filter (fun e => clusterOf e.1 != k) } }
      go s all (all.map partnerOf) [(k, p)] (s.posFor p))

/-- Tiles whose buddy position has a new carrier owe a full boundary (R437). -/
def State.oweFull (s : State) (l : List Nat) : State :=
  l.foldl (fun s w =>
    if s.noFen w || (s.tile w).vol.failed || (s.tile w).blk.lr.gang.isNone || (s.tile w).vol.replay.isSome then s
    else (s.modTile w fun t => t.modVol fun v => { v with phase := .full })) s

/-- Step 4 of a Causeway update (R358, R359): MGEN advances, every MAPG takes it, and the latency rows are written anew. -/
def State.newGeneration (s : State) : State :=
  let gen := s.mg.mgen + 1
  { s with
    mg := { s.mg with mgen := gen, rowCause := s.mg.cause, rowOvr := s.mg.ovr }
    tiles := s.tiles.map (fun e => (e.1, e.2.modVol fun v => { v with mapg := gen })) }

/-- The Milliner of its field sends the new entries of an update to the routers of a physical cluster that have not acknowledged them, over
class 7 (R302, R358), unless they are on their way. -/
def State.tellRouters (s : State) (d : Shadow) (p : Nat) : State :=
  if d.left.contains p && !s.net.any (fun q => q.dst == .router p) then s.emit (.milliner (fieldOf p)) (.router p) 7 0 .causeway 0 0 none else s

/-- CAUSEWAY_UPDATE (R302, R356, R358, R437): with `j` not 0 a Milliner sends the new entries to the routers of physical cluster `n`; with
`b` the packet `i` has come to them: they write their shadow copy and acknowledge. Once all have, the flip: bindings, position maps, OVR
entries and route tables become active, MGEN advances; restored tiles begin their replay, and tiles whose buddy position has a new carrier
owe a full boundary. -/
def execCausewayUpdate (s : State) : Host.Outcome State Fault Refusal :=
  .next (match s.mg.shadow with
  | none => s
  | some d =>
    if s.arg.j ≠ 0 then s.tellRouters d s.arg.n
    else if s.arg.b then (match s.arrival (.router s.arg.n) with
      | some p => { s.dropPkt p.id with mg := { s.mg with shadow := some { d with left := d.left.filter (fun q => q != s.arg.n) } } }
      | none => s)
    else if d.left.any (fun p => !s.mg.domainsOff.contains (domainOf p)) then s
    else
      let s := { s with
        net := s.net.filter (fun p => p.body != .causeway)
        mg := { s.mg with
          shadow := none, ovr := d.ovr
          cause := d.pcn.foldl (fun (t : Tbl (Bool × Nat)) (e : Nat × Nat) => Tbl.put t e.1 ((s.causeway e.1).1, e.2)) s.mg.cause }
        cp := { s.cp with gangs := s.cp.gangs.map (fun e => (e.1, { e.2 with routes := (Tbl.look d.routes e.1).getD e.2.routes })) } }
      let s := (d.pos.foldl (fun (s : State) (e : Nat × Tbl (Nat × Nat)) => s.modCluster e.1 fun c => { c with posmap := e.2 }) s).newGeneration
      (d.cores.foldl (fun s t => s.modTile t fun x => x.modVol fun v => { v with failed := v.failed && v.replay.isNone }) s).oweFull d.full)

/-- Send again everything that a tile keeps for retransmission and that is not on its way (R493): its messages, in their order, ahead of
those that wait to be sent. -/
def State.resend (s : State) (core : Nat) : State :=
  let k := (s.tile core).blk.ni
  let same := fun (p q : Pkt) => q.src == p.src && q.dst == p.dst && q.cls == p.cls && q.seq == p.seq
  let put := fun (s : State) (p : Pkt) => if s.net.any (same p) then s
    else let (id, s) := s.newId; { s with net := s.net ++ [{ p with id := id, stage := .queued }] }
  let old := k.rtx.filter (fun p => !s.net.any (same p))
  let s := { s with nextId := s.nextId + old.length, net := ((List.range old.length).zip old).map (fun e => { e.2 with id := s.nextId + e.1, stage := .queued }) ++ s.net }
  k.reqs.foldl (fun s r => put s { id := 0, src := .pool core, dst := r.owner, cls := 6, seq := r.seq, body := .req r, stage := .queued, pcn := 0, mask := 0, bytes := 0, rel := r.rel }) s

/-- REPLAY_END (R440, R441, R493): tile `n` has applied its last record and continues live; once no tile of its cluster is
under repair, the cluster is unfenced. -/
def execReplayEnd (s : State) : Host.Outcome State Fault Refusal :=
  let core := s.arg.n
  let k := clusterOf core
  .next (if (s.tile core).vol.replay ≠ some [] ∨ (s.tile core).vol.failed then s
  else
    let s := s.modTile core fun t => t.modVol fun v => { v with replay := none }
    let s := { s with mg := { s.mg with repairs := s.mg.repairs.filter (fun t => t != core), repaired := s.mg.repaired + 1 } }
    let s := if s.mg.repairs.any (fun t => clusterOf t == k) then s else s.setVld k true
    (s.resend core).payBoundary core)

/-- BACKGROUND_RETEST (R441): the retest of site `i` of cluster `n` ends, passed with `b`; only telemetry takes it (R475). -/
def execBackgroundRetest (s : State) : Host.Outcome State Fault Refusal :=
  .next (if (s.badSites (s.pcnOf s.arg.n)).contains s.arg.i then { s with mg := { s.mg with retests := s.mg.retests ++ [(s.arg.n, s.arg.i, s.arg.b)] } } else s)

/-- FULL_RE_TEST (R17, R19, R437, R442): cluster `n`, with no launch on it, is re-tested in full; `nums` names the sites that fail. Its
binding returns to the identity, the map generation advances, and tiles whose buddy position has a new carrier, or whose fen store a
twinning took, owe full boundaries. A spare cluster, `n` from 1,920, is re-tested while it carries nothing. -/
def execFullReTest (s : State) : Host.Outcome State Fault Refusal :=
  let k := s.arg.n
  let all := (List.range 16).map (tileAt k)
  let tested := fun (s : State) => { s with mg := { s.mg with badSites := Tbl.put s.mg.badSites k s.arg.nums, silent := s.mg.silent.filter (fun e => e / 32 != k) } }
  .next (if 1920 ≤ k then (if k < 2016 ∧ s.carriedBy k = none then tested s else s)
  else if all.any (fun t => (s.tile t).blk.lr.gang.isSome) ∨ s.mg.shadow.isSome ∨ s.mg.repairs.any (fun t => clusterOf t == k) then s
  else
    let bad := fun (site : Nat) => s.arg.nums.contains site || s.arg.nums.contains unitFault
    let moved := all.filter (fun t => s.pcnOf k != k || s.posMap k (posOf t) != (posOf t, posOf t) || s.mg.twins.any (fun e => e.2 == t))
    let s := (tested s).modCluster k fun c => { c with posmap := [] }
    let s := { s with mg := { s.mg with
      cause := Tbl.drop s.mg.cause k, spareUsed := s.mg.spareUsed.filter (fun p => p != s.pcnOf k)
      twins := s.mg.twins.filter (fun e => clusterOf e.1 != k) } }.newGeneration
    ((List.range 16).foldl (fun s p => s.modTile (tileAt k p) fun t => t.modVol fun v => { v with failed := bad p, detected := false }) s).oweFull (moved.map partnerOf))

/-- The logical clusters that a power domain carries (R20). -/
def State.clustersOf (s : State) (d : Nat) : List Nat := (List.range 1920).filter (fun k => domainOf (s.pcnOf k) == d)

/-- Set or clear a ready bit (R40); a number outside the register names no function. -/
def Mgmt.setReady (m : Mgmt) (f : Fn) (v : Bool) : Mgmt :=
  let b := v.toNat
  match f with
  | .field n => if n < 64 then { m with rdyfa := setFld m.rdyfa n n b } else if n < 84 then { m with rdyfb := setFld m.rdyfb (n - 64) (n - 64) b } else m
  | .rim n => if n < 24 then { m with rdym := setFld m.rdym n n b } else m
  | .hbm n => if n < 24 then { m with rdym := setFld m.rdym (24 + n) (24 + n) b } else m
  | .belvis n => if n < 16 then { m with rdym := setFld m.rdym (48 + n) (48 + n) b } else m
  | .crown => { m with rdyc := setFld m.rdyc 3 3 b }
  | .cpx => { m with rdyc := setFld m.rdyc 2 2 b }
  | .cxla => { m with rdyc := setFld m.rdyc 0 0 b }
  | .cxlb => { m with rdyc := setFld m.rdyc 1 1 b }

def Mgmt.isReady (m : Mgmt) (f : Fn) : Bool :=
  match f with
  | .field n => if n < 64 then m.rdyfa.getLsbD n else m.rdyfb.getLsbD (n - 64)
  | .rim n => m.rdym.getLsbD n
  | .hbm n => m.rdym.getLsbD (24 + n)
  | .belvis n => m.rdym.getLsbD (48 + n)
  | .crown => m.rdyc.getLsbD 3
  | .cpx => m.rdyc.getLsbD 2
  | .cxla => m.rdyc.getLsbD 0
  | .cxlb => m.rdyc.getLsbD 1

/-- The whole of a function is lost: its ready bit clears, and is not set again before module reset (R40). -/
def State.loseFn (s : State) (f : Fn) : State :=
  { s with mg := { s.mg.setReady f false with lost := if s.mg.lost.contains f then s.mg.lost else f :: s.mg.lost } }

/-- A packet in a router of a power domain that has none. -/
def Pkt.inDomain (p : Pkt) (d : Nat) : Bool :=
  match p.stage with
  | .hop x y => (match pcnAt x y with | some n => domainOf n == d | none => false)
  | _ => false

/-- A packet is lost in a router (R444): of class 7, and of class 0, its source sends it again; of the other classes the senders'
retransmission does. -/
def State.loseInRouter (s : State) (lost : Pkt → Bool) : State :=
  { s with net := s.net.filterMap (fun p => if !lost p then some p else if p.cls = 7 ∨ p.cls = 0 then some { p with stage := .queued } else none) }

/-- A power domain is lost (R444): its clusters stop and are to be relocated, and packets in its routers are lost; with its last domain
a field is lost (R40). -/
def State.loseDomain (s : State) (d : Nat) : State :=
  if s.mg.domainsOff.contains d then s
  else
    let s := { s with mg := { s.mg with domainsOff := d :: s.mg.domainsOff } }.loseInRouter (fun p => p.inDomain d)
    let s := (s.clustersOf d).foldl State.failCluster s
    if (List.range 4).all (fun q => s.mg.domainsOff.contains (4 * (d / 4) + q)) then s.loseFn (.field (d / 4)) else s

/-- The OVR and route-table entries that an event brings go into a Causeway update (R358, R444), once no other holds the update lock. -/
def State.goAround (s : State) : State :=
  if s.mg.shadow.isSome ∨ s.arg.nums.isEmpty then s
  else { s with mg := { s.mg with shadow := some (s.shadowFor true [] [] [] []) } }

/-- POWER_DOMAIN_LOSS (R358, R444): power domain `n`; the OVR and route-table entries that take traffic around it come in `nums` and go
into a Causeway update, once no other holds the update lock. -/
def execPowerDomainLoss (s : State) : Host.Outcome State Fault Refusal :=
  .next (s.loseDomain s.arg.n).goAround

end Sys2Proof.Machine
end

