-- ==== Sys2Proof/Machine/Network.lean ====
section
/-! DEFINITION. Packets under way: injection and egress (R306, R328, R370, R432, R485), routers (R354 to R357), UCIe
modules (R457, R458, R482 to R486) and Belvis ports (R459). An event that is not due changes nothing. -/

namespace Sys2Proof.Machine

/-! ### Where packets go -/

/-- The rim chiplet of an owner; `none` for a tile or TSC, and for a Milliner or routers. The command processor's packets join where chiplet 0 does (entry 22). -/
def chipletOf : Owner → Option Nat
  | .slice k => some k
  | .bank k => some (k / 256)
  | .cpx => some 0
  | .belvis _ => some 12
  | .port p => some (if p = 0 then 6 else 18)
  | .pool t => if t < rimBase then none else some ((t - rimBase) / 16)
  | .milliner _ => none
  | .router _ => none

/-- The logical tile whose coordinates bind a packet to a module (R458, R483): its source, or, of a reply, its
destination; (0, 0) where neither is a tile. -/
def Pkt.boundTo (p : Pkt) : Nat × Nat :=
  let at_ := fun (o : Owner) => match o with | .pool t => if isTile t then some (tileX t, tileY t) else none | _ => none
  ((at_ p.src).or (at_ p.dst)).getD (0, 0)

/-- A place in the `i`-th sixth of an edge of `n` routers. -/
def sixth (n i place : Nat) : Nat := n * i / 6 + place % (n * (i + 1) / 6 - n * i / 6)

/-- The router at which a module of a rim chiplet joins the wafer: six chiplets to an edge of the array, clockwise from the west end of
the north edge, each within its own sixth of the edge (R30). -/
def rimRouter (c m : Nat) : Int × Int :=
  let r := Config.rimPlace c m
  match c / 6 with
  | 0 => ((sixth 192 (c % 6) r : Nat), 0)
  | 1 => (191, (sixth 160 (c % 6) r : Nat))
  | 2 => (191 - (sixth 192 (c % 6) r : Nat), 159)
  | _ => (0, 159 - (sixth 160 (c % 6) r : Nat))

def State.uci (s : State) (m : Nat) : Uci := Tbl.get s.rim.uci m .reset
def State.modUci (s : State) (m : Nat) (f : Uci → Uci) : State := s.modRim fun r => { r with uci := Tbl.put r.uci m (f (s.uci m)) }

/-- Modules of a chiplet that are in service, ascending (R458). -/
def State.inService (s : State) (c : Nat) : List Nat := ((List.range 12).map (fun m => 12 * c + m)).filter (fun m => (s.uci m).half != 3)

/-- The module of a chiplet that a packet uses (R458, R483). -/
def State.moduleFor (s : State) (c : Nat) (p : Pkt) : Option Nat :=
  let l := s.inService c
  l[(p.boundTo.1 + p.boundTo.2) % l.length]?

/-- The router of a tile or TSC in the grid of routers; a TSC's is that of position 0. -/
def State.routerAt (s : State) (core : Nat) : Int × Int :=
  if isTile core then s.routerOf core
  else let p := s.pcnOf (core - tscBase); (4 * pcnX p, 4 * pcnY p)

/-- The router at which a Milliner's packet to the routers of a physical cluster joins the mesh: of the lowest cluster of that power domain,
so that no dead domain stands in its way (entry 22). -/
def millinerAt (p : Nat) : Int × Int :=
  let q := ((List.range 2016).find? (fun q => domainOf q == domainOf p)).getD p
  (4 * pcnX q, 4 * pcnY q)

/-! ### Lines at a Belvis port (R335, R459) -/

/-- The request of a copy's line that has come to a Belvis port, in its turn: the line, or one that asks for the line, leaves in a transport
frame. A line is answered at once, a read when the line comes. -/
def State.portTakes (s : State) (port : Nat) (p : Pkt) (r : Req) : State :=
  s.ownerTurn (.belvis port) p r fun s =>
    let frame := fun (bs : List Byte) (s : State) => s.modBelvis port fun b =>
      { b with tx := b.tx + 1, out := b.out ++ [(b.tx, r.op.first / 2 ^ 48, r.op.first % 2 ^ 48, bs, r.src, r.line.getD 16)] }
    match r.op with
    | .write els => (frame (els.flatMap (fun e => e.2)) s).answerReq (.belvis port) p r {} none
    | _ => ((frame [] s).modBelvis port fun b => { b with asks := b.asks ++ [r] }).complete (.belvis port) r none

/-- What has come to the Belvis ports is taken, each source's in its order. -/
def State.portsTake (s : State) : State :=
  s.net.foldl (fun (s : State) _ =>
    match s.net.find? (fun p => p.stage == .arrived && (match p.dst, p.body with
      | .belvis n, .req r => turnOf (s.dedupOf (.belvis n) r.src).done r.seq != .early
      | _, _ => false)) with
    | some p => (match p.dst, p.body with | .belvis n, .req r => s.portTakes n p r | _, _ => s)
    | none => s) s

/-! ### Injection (R255, R306, R354) -/

/-- The earlier accesses that a released packet waits for are bounded by the oldest identity of its own unit. -/
def Pkt.bound (p : Pkt) : Nat :=
  match p.body with
  | .req r => min p.id (min (r.jrn.getD p.id) (r.out.getD p.id))
  | _ => p.id
/-- Context of a packet's unit. -/
def Pkt.ctxOf (p : Pkt) : Nat :=
  match p.body with
  | .req r => r.ctx
  | .msg m => m.ctx
  | .xwrite _ _ c _ => c
  | _ => 0

/-- May a packet leave its source: its destination's cluster is not fenced (R354, R441), a message is not one of a tile under replay, which
sends what it has kept first (R493), the release it carries is performed, and the writes of
the core that popped a command are applied before its completion notice (R266). -/
def State.mayLeave (s : State) (core : Nat) (p : Pkt) : Bool :=
  (match p.dst with | .pool t => rimBase ≤ t || !s.fenced (homeCluster t) | _ => true) &&
  (p.cls = 0 || 6 ≤ p.cls || (match p.src with | .pool t => (s.tile t).vol.replay.isNone | _ => true)) &&
  (match p.rel with | some sc => s.performed core p.ctxOf p.bound sc | none => true) &&
  (match p.body with
    | .optDone _ _ (k, id) => (List.range 8).all (fun c => s.performed k c id 6)
    | _ => true)

/-- The classes in the order of a round, and their weights (R306). -/
def roundClass (i : Nat) : Nat := [6, 1, 2, 3, 4, 5].getD (i % 6) 6
def classWeight (cw : BitVec 16) (k : Nat) : Nat :=
  if k = 6 then 8 else if k = 1 then 2 else max 1 (fld cw (4 * k - 5) (4 * k - 8))

/-- The next packet in the round: place in the round, messages started there, and the packet. -/
def nextInRound (cw : BitVec 16) (ready : Nat → Option Pkt) (turn spent : Nat) : Nat → Option (Nat × Nat × Pkt)
  | 0 => none
  | n + 1 => match ready (roundClass turn) with
    | some p => if spent < classWeight cw (roundClass turn) then some (turn, spent + 1, p) else nextInRound cw ready ((turn + 1) % 6) 0 n
    | none => nextInRound cw ready ((turn + 1) % 6) 0 n

/-- A packet is taken for injection: it carries the physical cluster that the source's Causeway gives (R355). -/
def State.inject (s : State) (p : Pkt) : State :=
  s.modPkt p.id fun q => { q with stage := .held, pcn := match q.dst with | .pool t => s.pcnOf (homeCluster t) | _ => 0 }

/-- NI_INJECTION (R263, R306): the NI of the source whose number is `n` (a core, or 40,000 + slice, 40,100 + port, or 40,200 for the
command processor, or 40,400 + field for a Milliner) takes in the scans of a query whose turn has come; else it chooses its next message: of class 7, of class 0, or the next of the
round. -/
def execNiInjection (s : State) : Host.Outcome State Fault Refusal :=
  let src := ownerOf s.arg.n
  let ready := fun (core k : Nat) => s.net.find? (fun p => p.src == src && p.stage == .queued && p.cls == k && s.mayLeave core p)
  .next (match src with
  | .pool core =>
    let t := s.tile core
    if t.vol.failed || t.vol.switched then s
    else if t.vol.replay.isNone && t.blk.en.queries.any (fun q => !q.pages.isEmpty && t.queryTurn q) then s.startQueries core
    else match (ready core 7).or (ready core 0) with
      | some p => s.inject p
      | none => match nextInRound t.blk.ni.cw (ready core) t.vol.turn t.vol.spent 13 with
        | some (i, n, p) => (s.inject p).modTile core fun t => t.modVol fun v => { v with turn := i, spent := n }
        | none => s
  | _ => match s.net.find? (fun p => p.src == src && p.stage == .queued && s.mayLeave s.arg.n p) with
    | some p => s.inject p
    | none => s)

/-- EGRESS_HOLD_EXPIRY (R432): packet `i` leaves its source after its hold: to its router, or, from the rim, to its module,
or straight to an owner of the same chiplet. -/
def execEgressHoldExpiry (s : State) : Host.Outcome State Fault Refusal :=
  .next (match s.pkt? s.arg.i with
  | none => s
  | some p =>
    if p.stage ≠ .held then s
    else match chipletOf p.src with
    | none => (match p.src with
      | .pool t => if (s.tile t).vol.failed then s else s.modPkt p.id fun q => { q with stage := .hop (s.routerAt t).1 (s.routerAt t).2 }
      | _ => (match p.dst with
        | .router n => s.modPkt p.id fun q => { q with stage := .hop (millinerAt n).1 (millinerAt n).2 }
        | _ => s))
    | some c =>
      if chipletOf p.dst = some c then (s.modPkt p.id fun q => { q with stage := .arrived }).portsTake
      else match s.moduleFor c p with
        | some m => s.modPkt p.id fun q => { q with stage := .link m false }
        | none => s)

/-! ### Routers (R354 to R357) -/

/-- West first, then any productive port (R357). -/
def portWf (x y a b : Int) (choice : Nat) : Nat :=
  if a < x then 4
  else
    let l := (if x < a then [2] else []) ++ (if y < b then [3] else []) ++ (if b < y then [1] else [])
    l.getD (choice % l.length) 1

/-- The clusters of a rectangle of tiles. -/
def rectClusters (x y w h : Nat) : List Nat :=
  (List.range ((y + h + 3) / 4 - y / 4)).flatMap (fun j => (List.range ((x + w + 3) / 4 - x / 4)).map (fun i => (y / 4 + j) * 48 + x / 4 + i))
/-- The clusters of a launch. -/
def LRec.clusters (r : LRec) : List Nat := rectClusters r.gxo r.gyo r.gw r.gh

/-- The port that a launch's route table gives at a router towards a cluster (R356): the routers of the gang have the table, and at the
destination cluster the position map leads on (R355); 0 where none does. -/
def State.tablePort (s : State) (gang : Option Nat) (cls k : Nat) (x y : Int) : Nat :=
  match gang.bind s.gang? with
  | none => 0
  | some g =>
    let here := (g.lrec.clusters.find? (fun c => pcnAt x y == some (s.pcnOf c)))
    if here.isSome && here != some k then Tbl.get g.routes (2048 * (cls - 2) + k) 0 else 0

/-- The output port that a router gives a packet for a router (a, b): a forced hop, else the class's mode (R355 to R357); where
the mesh ends there, the other axis (R29). -/
def State.portFor (s : State) (p : Pkt) (x y a b : Int) : Nat :=
  let src := match p.src with | .pool t => t | _ => rimBase
  let k := match p.dst with | .pool t => homeCluster t | _ => 2047
  let ovr := s.ovrAt x y k
  let mode := if 2 ≤ p.cls ∧ p.cls ≤ 5 then fld (s.tile src).blk.ni.rmod (2 * p.cls - 3) (2 * p.cls - 4) else 0
  inMesh x y a b (if 1 ≤ ovr ∧ ovr ≤ 4 then ovr
  else match mode with
  | 0 => portXy x y a b
  | 1 => portYx x y a b
  | 2 => portWf x y a b (Config.adaptive s.fresh)
  | _ =>
    let t := s.tablePort (s.tile src).blk.lr.gang p.cls k x y
    if 1 ≤ t ∧ t ≤ 4 then t else portXy x y a b)

/-- PACKET_HOP (R355): the router that has packet `i` corrects its physical cluster and forwards it; at its destination's
router it arrives, and at the edge it goes to a module. A packet sent into a dead domain is lost (R444). -/
def execPacketHop (s : State) : Host.Outcome State Fault Refusal :=
  .next (match s.pkt? s.arg.i with
  | none => s
  | some p => match p.stage with
    | .hop x y =>
      let dest : Option ((Int × Int) × Stage) := match chipletOf p.dst with
        | some c => (s.moduleFor c p).map (fun m => (rimRouter c (m % 12), Stage.link m true))
        | none => (match p.dst with
          | .pool t => some (s.routerAt t, Stage.arrived)
          | .router n => some ((4 * pcnX n, 4 * pcnY n), Stage.arrived)
          | _ => none)
      (match dest with
      | none => s
      | some ((a, b), st) =>
        let pcn := match p.dst with | .pool t => s.pcnOf (homeCluster t) | _ => 0
        if x = a ∧ y = b then s.modPkt p.id fun q => { q with stage := st, pcn := pcn }
        else
          let (u, v) := through x y (s.portFor p x y a b)
          match pcnAt u v with
          | some n => if s.mg.domainsOff.contains (domainOf n) then s.loseInRouter (fun q => q.id == p.id) else s.modPkt p.id fun q => { q with stage := .hop u v, pcn := pcn }
          | none => s.modPkt p.id fun q => { q with stage := .hop u v, pcn := pcn })
    | _ => s)

/-! ### Retransmission and channels (R328, R370, R485) -/

/-- Send a packet again unless a copy of it still waits at its source. -/
def State.sendAgain (s : State) (p : Pkt) : State :=
  if s.net.any (fun q => q.src == p.src && q.dst == p.dst && q.cls == p.cls && q.seq == p.seq && (q.stage == .queued || q.stage == .held)) then s
  else let (id, s) := s.newId; { s with net := s.net ++ [{ p with id := id, stage := .queued }] }

/-- RETRANSMISSION_TIMEOUT (R328): entry `i` of the retransmission buffer of core `n`. -/
def execRetransmissionTimeout (s : State) : Host.Outcome State Fault Refusal :=
  let core := s.arg.n
  .next (if !s.alive core then s else match (s.tile core).blk.ni.rtx[s.arg.i]? with
  | some p => s.sendAgain p
  | none => s)

/-- CLASS6_RETRANSMISSION_TIMEOUT (R485): unanswered request `i` of core `n` is sent again with its number. -/
def execClass6RetransmissionTimeout (s : State) : Host.Outcome State Fault Refusal :=
  let core := s.arg.n
  .next (if !s.alive core then s else match (s.tile core).blk.ni.reqs[s.arg.i]? with
  | some r => s.sendAgain { id := 0, src := .pool core, dst := r.owner, cls := 6, seq := r.seq, body := .req r, stage := .queued, pcn := 0, mask := 0, bytes := 0, rel := r.rel }
  | none => s)

/-- CHANNEL_IDLE_CLOSE (R370): send entry `i` of core `n`, all of it acknowledged and idle, closes. -/
def execChannelIdleClose (s : State) : Host.Outcome State Fault Refusal :=
  let core := s.arg.n
  .next (if !s.alive core then s else match (s.tile core).blk.ni.send[s.arg.i]? with
  | some e =>
    if s.idleChan core e then s.closeChan core e else s
  | none => s)

/-! ### UCIe modules (R457, R458, R482 to R486) -/

/-- Bytes of a packet's data (R457). -/
def Body.dataBytes : Body → Nat
  | .req r => (match r.op with
    | .read .. | .pop _ => 0
    | .write els => (els.map (fun e => e.2.length)).foldl (fun a b => a + b) 0
    | .atomic .. | .reduce .. | .stampMerge .. | .scan .. | .decay .. => 16
    | .stampAdd els _ _ => 4 * els.length
    | .push .. => 128
    | .append _ _ _ rows => (rows.map (fun e => e.2.length)).foldl (fun a b => a + b) 0)
  | .reply r => if r.pop.isSome then 128 else r.data.length
  | .msg m => m.payload.length
  | .xwrite _ bs _ _ => bs.length
  | _ => 0

/-- Bytes of a packet on a module: a 16-byte header and padded data; none is larger than a flit. -/
def Pkt.linkBytes (p : Pkt) : Nat := min 240 (16 + (p.body.dataBytes + 15) / 16 * 16)

/-- As many whole packets as fit into what is left of a flit. -/
def fillFlit : Nat → List Pkt → List Nat
  | _, [] => []
  | room, p :: ps => if p.linkBytes ≤ room then p.id :: fillFlit (room - p.linkBytes) ps else []

/-- One direction of a module. -/
def Uci.dir (u : Uci) (toRim : Bool) : LinkDir := if toRim then u.toRim else u.toWafer
def Uci.modDir (u : Uci) (toRim : Bool) (f : LinkDir → LinkDir) : Uci := if toRim then { u with toRim := f u.toRim } else { u with toWafer := f u.toWafer }

/-- FLIT_TRANSMIT (R482): the transmitter of module `n`, towards the rim with `b`, forms its next flit from the packets that
wait; it goes out at once unless the module is held. -/
def execFlitTransmit (s : State) : Host.Outcome State Fault Refusal :=
  let m := s.arg.n
  let u := s.uci m
  let d := u.dir s.arg.b
  let ids := fillFlit 240 (s.net.filter (fun (p : Pkt) => p.stage == Stage.link m s.arg.b))
  .next (if u.half = 3 ∨ ids.isEmpty ∨ 128 ≤ d.buf.length then s
  else
    let s := { s with net := s.net.map (fun (p : Pkt) => if ids.contains p.id then { p with stage := Stage.flit m s.arg.b } else p) }
    s.modUci m fun u => u.modDir s.arg.b fun d =>
      { d with seq := d.seq + 1, buf := d.buf ++ [(d.seq, ids)]
               unsent := if u.retraining then d.unsent + 1 else d.unsent
               wire := if u.retraining then d.wire else d.wire ++ [(d.seq, ids)] })

/-- Retraining holds the module's flits; what is on the wire is sent again afterwards (R458). -/
def Uci.retrain (u : Uci) : Uci :=
  { u with retraining := true, toRim := { u.toRim with wire := [], nak := none }, toWafer := { u.toWafer with wire := [], nak := none } }

/-- Packets of a delivered flit (R457): arrived at the chiplet, or at the router where the module joins the edge. -/
def State.delivered (s : State) (m : Nat) (toRim : Bool) (ids : List Nat) : State :=
  let r := rimRouter (m / 12) (m % 12)
  { s with net := s.net.map (fun (p : Pkt) => if ids.contains p.id then { p with stage := if toRim then Stage.arrived else Stage.hop r.1 r.2 } else p) }

/-- FLIT_RECEIVE (R457, R458): the receiver of module `n`, of the direction towards the rim with `b`, takes the next flit
from the wire; `j` not 0 says that its CRC fails. -/
def execFlitReceive (s : State) : Host.Outcome State Fault Refusal :=
  let m := s.arg.n
  let u := s.uci m
  let d := u.dir s.arg.b
  .next (match d.wire with
  | [] => s
  | (q, ids) :: rest =>
    if u.retraining ∨ u.half = 3 then s
    else
      let d := { d with wire := rest, received := d.received + 1 }
      if s.arg.j ≠ 0 then
        let fails := (d.received :: d.fails).filter (fun n => decide (d.received < n + 65536))
        let u := { u.modDir s.arg.b (fun _ => { d with nak := some d.expect, fails := fails }) with crc := u.crc + 1 }
        s.modUci m fun _ => if 4 ≤ fails.length then u.retrain else u
      else if q = d.expect then
        (s.modUci m fun u => u.modDir s.arg.b fun _ => { d with expect := d.expect + 1, buf := d.buf.filter (fun e => e.1 != q) }).delivered m s.arg.b ids |>.portsTake
      else s.modUci m fun u => u.modDir s.arg.b fun _ => d)

/-- NAK_RECEIVE (R457): the transmitter of module `n` sends again from the named flit on. -/
def execNakReceive (s : State) : Host.Outcome State Fault Refusal :=
  let m := s.arg.n
  let u := s.uci m
  let d := u.dir s.arg.b
  .next (match d.nak with
  | none => s
  | some q =>
    let again := d.buf.dropWhile (fun e => e.1 != q)
    s.modUci m fun u => { u.modDir s.arg.b (fun d => { d with nak := none, wire := d.wire ++ again }) with rpl := u.rpl + BitVec.ofNat 24 again.length })

/-- LANE_FAILURE (R458): lane `i` of module `n` fails, and the module retrains. -/
def execLaneFailure (s : State) : Host.Outcome State Fault Refusal :=
  .next (if (s.uci s.arg.n).half = 3 then s else s.modUci s.arg.n fun u => { u.retrain with failed := (s.arg.i % 64) :: u.failed })

/-- A rim chiplet is lost (R40, R445): its ready bit clears for good, and every launch that uses device memory ends failed. -/
def State.loseChiplet (s : State) (c : Nat) : State :=
  let s := s.loseFn (.rim c)
  s.cp.gangs.foldl (fun s (e : Nat × Gang) => if e.2.lrec.dvm then s.doubleFault e.1 else s) s

/-- A module leaves service: its packets move to the modules that their channels are bound to now, and so do packets that wait at a module
whose channel has another one now (R458); the chiplet's last module takes the chiplet with it. -/
def State.leaveService (s : State) (m : Nat) : State :=
  let c := m / 12
  let s := s.modUci m fun u => { u with half := 3, lanes := 0, retraining := false, toRim := .reset, toWafer := .reset }
  let s := { s with net := s.net.map (fun (p : Pkt) =>
    let move := fun (toRim : Bool) => match s.moduleFor c p with | some k => { p with stage := .link k toRim } | none => p
    match p.stage with
    | .link k b => if k / 12 = c then move b else p
    | .flit k b => if k = m then move b else p
    | _ => p) }
  if (s.inService c).isEmpty then s.loseChiplet c else s

/-- RETRAIN_COMPLETE (R458, R484): retraining of module `n` ends, `nums` the lanes that fail its test. -/
def execRetrainComplete (s : State) : Host.Outcome State Fault Refusal :=
  let m := s.arg.n
  let u := s.uci m
  .next (if !u.retraining then s
  else
    let bad := u.failed ++ s.arg.nums
    let low := bad.any (fun l => decide (l < 32))
    let high := bad.any (fun l => decide (32 ≤ l))
    let s := s.modUci m fun u => { u with failed := bad }
    if low && high then s.leaveService m
    else s.modUci m fun u =>
      let go := fun (d : LinkDir) => { d with wire := d.buf, unsent := 0, expect := d.expect }
      { u with retraining := false, lanes := 32, half := if low then 2 else 1, toRim := go u.toRim, toWafer := go u.toWafer
               rpl := u.rpl + BitVec.ofNat 24 (u.toRim.buf.length - u.toRim.unsent + (u.toWafer.buf.length - u.toWafer.unsent)) })

/-! ### Belvis ports (R459) -/

/-- A line of a frame: the answer to the oldest read of this address, through a window of the port, that waits for it; or written to device
memory. -/
def State.takeLine (s : State) (port mod : Nat) (e : Nat × List Byte) : State :=
  match (s.belvisOf port).asks.find? (fun r => r.op.first == windowAddr mod e.1) with
  | some r =>
    let rep := r.reply { data := bytesAt 0 e.2 } none
    ((s.modBelvis port fun b => { b with asks := b.asks.filter (fun q => q.id != r.id) }).modDedup (.belvis port) r.src (fun d => d.hold true r.seq rep)).emit
      (.belvis port) (.pool r.src) 6 0 (.reply rep) 0 0 none
  | none => if e.1 + 128 ≤ deviceEnd then s.putDev (Mem.write s.dev e.1 e.2) else s

/-- A cumulative acknowledgement of a port's frames (R459). -/
def Belvis.ack (b : Belvis) (n : BitVec 32) : Belvis :=
  if (n - b.una).toNat ≤ (b.tx - b.una).toNat then
    { b with una := n, resends := if n = b.una then b.resends else 0, out := b.out.filter (fun e => decide ((n - b.una).toNat ≤ (e.1 - b.una).toNat)) }
  else b

/-- BELVIS_FRAME_RECEIVE (R459): a transport frame for this module arrives at port `n`: its acknowledgement, and, in order, its lines. -/
def execBelvisFrameReceive (s : State) : Host.Outcome State Fault Refusal :=
  let port := s.arg.n
  .next (match s.arg.frame with
  | none => s
  | some f =>
    if f.dst ≠ s.rim.moduleNo then s
    else
      let s := s.modBelvis port fun b => b.ack f.ack
      if f.seq = (s.belvisOf port).rx then
        f.lines.foldl (fun s e => s.takeLine port f.src.toNat e) (s.modBelvis port fun b => { b with rx := b.rx + 1 })
      else s)

/-- A port gives up (R459): the copies whose frames are not acknowledged end with status 5, and reads that wait at it are refused. -/
def State.unreachable (s : State) (port : Nat) : State :=
  let b := s.belvisOf port
  let s := b.out.foldl (fun s e => s.modCopy e.2.2.2.2.1 e.2.2.2.2.2 fun c => { c with st := if c.st = 0 then 5 else c.st }) s
  b.asks.foldl (fun s r => s.emit (.belvis port) (.pool r.src) 6 0 (.reply (r.reply { refused := some (0, r.addr) } none)) 0 0 none) (s.modBelvis port fun b => { b with asks := [] })

/-- BELVIS_RESEND_TIMEOUT (R459): 50 µs without acknowledgement at port `n`: the frames are sent again; after 20 times the
target counts as unreachable. -/
def execBelvisResendTimeout (s : State) : Host.Outcome State Fault Refusal :=
  let port := s.arg.n
  let b := s.belvisOf port
  .next (if b.una = b.tx then s
  else if b.resends < 20 then s.modBelvis port fun b => { b with resends := b.resends + 1 }
  else s.unreachable port)

end Sys2Proof.Machine
end

