-- ==== Sys2Proof/Machine/Launch.lean ====
section
/-! DEFINITION. Launches: the record and its checks (R45, R463, R464), placement (R41, R320), release (R46 to R51, R66,
R491), completion (R54, R72, R268, R312, R465), the gang switch (R76, R242, R447, R448) and its failures (R449). An event
that is not due changes nothing. -/

namespace Sys2Proof.Machine

/-! ### Memory of the command processor (entry 12) -/

/-- The home slices have applied the reductions that they hold. -/
def State.flushed (s : State) : State := (List.range 24).foldl State.flushSlice s

/-- Read bytes through the translations of a queue or launch; `none` where unreadable. -/
def State.cpRead (s : State) (v : CpSpace) (a : Word) (n : Nat) : Option (List Byte) :=
  (s.cpPlace v a n).map (fun e => Mem.bytes (if e.1 then s.flushed.dev else s.host) e.2 n)
def State.cpWord (s : State) (v : CpSpace) (a : Word) : Option Word := (s.cpRead v a 8).map (fun b => BitVec.ofNat 64 (leNat b))
/-- Write bytes; `none` where it cannot. -/
def State.cpWrite (s : State) (v : CpSpace) (a : Word) (bs : List Byte) : Option State :=
  (s.cpPlace v a bs.length).map (fun e =>
    if e.1 then let s := s.flushed; s.putDev (Mem.write s.dev e.2 bs)
    else { s with host := Mem.write s.host e.2 bs })

/-! ### The launch record (R463) -/

/-- `n` bytes of a record as a number. -/
def recNat (r : List Byte) (off n : Nat) : Nat := leNat ((r.drop off).take n)
/-- A signed byte. -/
def recS8 (r : List Byte) (off : Nat) : Int := (BitVec.ofNat 8 (recNat r off 1)).toInt

def readRec (r : List Byte) : LRec :=
  let w := fun (off : Nat) => BitVec.ofNat 64 (recNat r off 8)
  let f := recNat r 2 1
  { ord := f.testBit 0, lsen := f.testBit 1, drn0 := f.testBit 2, dvm := f.testBit 3, fxo := f.testBit 4
    pres := BitVec.ofNat 8 (recNat r 3 1) ||| 0xE3, bw := BitVec.ofNat 8 (recNat r 4 1), bh := BitVec.ofNat 8 (recNat r 5 1)
    gw := recNat r 6 1, gh := recNat r 7 1, gxo := recNat r 8 1, gyo := recNat r 9 1
    ctxl := BitVec.ofNat 8 (recNat r 0x0A 1), dvs := recNat r 0x0B 1, rmod := BitVec.ofNat 8 (recNat r 0x0C 1)
    aest := recNat r 0x0D 1, cw := BitVec.ofNat 16 (recNat r 0x0E 2), part := w 0x10, img := w 0x18
    isz := recNat r 0x20 4, xb := recNat r 0x24 4, tent := recNat r 0x28 4, bent := recNat r 0x2C 4
    uent := recNat r 0x30 4, oent := recNat r 0x34 4, d := w 0x38, w := w 0x40, ivl := recNat r 0x50 4
    asid := BitVec.ofNat 12 (recNat r 0x54 4), pasid := BitVec.ofNat 20 (recNat r 0x54 4 / 4096), gst0 := w 0x58
    ls0 := recS8 r 0x60, lsmin := recS8 r 0x61, lsmax := recS8 r 0x62, ncln := recNat r 0x64 4, stbl := w 0x68
    stbn := recNat r 0x70 4, bmt := w 0x80, rtab := w 0x88, dtab := w 0x90, savb := w 0x98, crec := w 0xA0
    csig := w 0xA8, cval := w 0xB0, ltag := w 0xB8 }

/-- The fields of a record that must be zero (R463). -/
def recZero (r : List Byte) : Bool :=
  recNat r 0 2 == 1 && recNat r 2 1 < 32 && recNat r 0x48 8 == 0 && recNat r 0x63 1 == 0 && recNat r 0x74 12 == 0 && recNat r 0xC0 64 == 0

/-- A partition word's parts (R136), and its scratchpad limit (R137), as an integer: negative where the areas do not
fit. -/
def partLim (p : Word) : Int := 0x200000 - 4096 * (fld p 3 0 : Nat) - 65536 * (fld p 7 4 : Nat) - 1024 * (fld p 23 16 : Nat) * (fld p 3 0 : Nat)
def partOk (p : Word) : Bool := 1 ≤ fld p 3 0 && fld p 3 0 ≤ 8 && fld p 7 4 ≤ 8 && fld p 15 8 == 0 && fld p 63 24 == 0

/-- Reason 2: the rectangle and the levels (R45). -/
def LRec.rectOk (r : LRec) : Bool :=
  let cl := r.pres.getLsbD 3
  let m := if cl then 4 else 2
  r.gw != 0 && r.gh != 0 && r.gw % m == 0 && r.gh % m == 0 && r.gw ≤ 192 && r.gh ≤ 160 &&
    (!r.pres.getLsbD 4 || (cl && r.bw != 0 && r.bh != 0 && r.gw / 4 % r.bw.toNat == 0 && r.gh / 4 % r.bh.toNat == 0)) &&
    (if r.fxo then r.gxo % m == 0 && r.gyo % m == 0 && r.gxo + r.gw ≤ 192 && r.gyo + r.gh ≤ 160 else r.gxo == 0 && r.gyo == 0)

/-- Classes in table mode. -/
def LRec.tableClasses (r : LRec) : List Nat := [2, 3, 4, 5].filter (fun k => fld r.rmod (2 * k - 3) (2 * k - 4) == 3)

/-- A partition descriptor (R498). -/
def State.partition (s : State) (n : Nat) : Partition := Tbl.get s.cp.parts n (.reset n)
def Partition.owns (p : Partition) (k : Nat) : Bool := p.clm.getLsbD k

/-- The stable ranges of a record (R463). -/
def State.stableList (s : State) (r : LRec) : List (Nat × Nat) :=
  if r.stbn = 0 then []
  else match s.cpRead r.space r.stbl (16 * r.stbn) with
  | none => []
  | some b => (List.range r.stbn).map (fun i => (fld (BitVec.ofNat 64 (recNat b (16 * i) 8)) 47 0, recNat b (16 * i + 8) 8))

/-- The stable-page table is unreadable or has an entry that is no page (R342). -/
def State.badStable (s : State) (r : LRec) : Bool :=
  match s.cpRead r.space r.stbl (16 * r.stbn) with
  | none => true
  | some b => (List.range r.stbn).any (fun i => recNat b (16 * i) 8 % 65536 != 0 || recNat b (16 * i + 8) 8 % 65536 != 0)

/-- The cluster behind a port of a cluster, in the array of 48 by 40. -/
def clusterStep (k port : Nat) : Option Nat :=
  match port with
  | 1 => if k < 48 then none else some (k - 48)
  | 2 => if k % 48 = 47 then none else some (k + 1)
  | 3 => if 1872 ≤ k then none else some (k + 48)
  | _ => if k % 48 = 0 then none else some (k - 1)

/-- A packet for cluster `dst` comes there from a cluster, under the port that the gang's clusters give it; elsewhere it goes xy (R356).
A route that has not come there after as many clusters as the array has is a cycle. -/
def routeEnds (gang : List Nat) (code dst : Nat) (k : Nat) : Nat → Bool
  | 0 => false
  | n + 1 =>
    if k = dst then true
    else match clusterStep k (if code ≠ 0 ∧ gang.contains k then code else portXy (k % 48 : Nat) (k / 48 : Nat) (dst % 48 : Nat) (dst / 48 : Nat)) with
      | none => false
      | some k => routeEnds gang code dst k n

/-- A route table leads every packet from a cluster of the gang to every other (R305). -/
def LRec.routeOk (r : LRec) (b : List Byte) : Bool :=
  r.clusters.all (fun dst => r.clusters.all (fun k => routeEnds r.clusters (b.getD dst 0).toNat dst k 1920))

/-- The route table of a class (R463). -/
def State.routeTable (s : State) (r : LRec) (k : Nat) : Option (List Byte) := s.cpRead r.space (r.rtab + BitVec.ofNat 64 (2048 * (k - 2))) 1920

/-- The routes of a record at its origin have a cycle (R305). -/
def State.cyclic (s : State) (r : LRec) : Bool :=
  r.rtab != 0 && r.tableClasses.any (fun k => !((s.routeTable r k).map r.routeOk).getD true)

/-- The route tables are unreadable, or that of a class in table mode holds another code than 0 to 4 (R356), or, at a fixed origin, has a cycle
(R305); where the origin is not fixed, the cycles are looked for once it is known (entry 22). -/
def State.badRoutes (s : State) (r : LRec) : Bool :=
  (s.cpRead r.space r.rtab 8064).isNone || r.tableClasses.any (fun k => ((s.routeTable r k).getD []).any (fun x => decide (4 < x.toNat))) ||
    (r.fxo && s.cyclic r)

/-- The reason for which a readable record with its zero fields zero is invalid (R464). -/
def State.invalid (s : State) (r : LRec) (prt : Nat) : Option Nat :=
  let p := s.partition prt
  let entry := fun (e : Nat) => e % 2 == 0 && decide (e < r.xb)
  if !r.rectOk then some 2
  else if !partOk r.part ∨ (partLim r.part < (r.isz : Int)) ∨ (s.cpRead r.space r.img r.isz).isNone then some 3
  else if r.xb % 128 ≠ 0 ∨ !(entry r.tent && entry r.bent && entry r.uent && entry r.oent) ∨ r.ctxl = 0 ∨ 2 ^ fld r.part 3 0 ≤ r.ctxl.toNat then some 4
  else if r.d.toNat ≤ r.w.toNat then some 5
  else if !(r.ivl == 0 || (100 ≤ r.ivl && r.ivl ≤ 100000)) ∨ 65535 < r.ncln ∨ r.ls0 < r.lsmin ∨ r.lsmax < r.ls0 then some 6
  else if 1024 * fld r.part 23 16 < 160 * r.dvs then some 7
  else if (r.bmt != 0 && (s.cpRead r.space r.bmt (4 * r.gw * r.gh)).isNone) || (r.dtab != 0 && (s.cpRead r.space r.dtab 1380).isNone) || decide (64 < r.stbn) ||
      (r.stbn != 0 && s.badStable r) || (r.rtab != 0 && s.badRoutes r) then some 8
  else if !p.en ∨ !(p.abas ≤ r.asid.toNat && r.asid.toNat < p.abas + p.acnt) ∨ !(p.pbas ≤ r.pasid.toNat && r.pasid.toNat < p.pbas + p.pcnt) ∨
      (r.fxo ∧ !r.clusters.all p.owns) then some 9
  else none

/-- Brim time of a record (R65). -/
def LRec.b (r : LRec) : Word := if r.d = 0xFFFFFFFFFFFFFFFF then r.d else r.d - r.w

/-! ### Placement (R41, R320) -/

/-- A cluster that may carry work of a partition: its field ready, its descriptor's. -/
def State.clusterOk (s : State) (p : Partition) (k : Nat) : Bool := p.owns k && s.fieldReady (fieldOf (s.pcnOf k))
/-- A tile that no launch holds and that has not failed. -/
def State.tileFree (s : State) (t : Nat) : Bool := (s.tile t).blk.lr.gang.isNone && !(s.tile t).vol.failed
/-- Clusters reserved for other queues. -/
def State.reservedFor (s : State) (q k : Nat) : Bool := s.cp.reserved.any (fun e => e.1 != q && e.2.contains k)

/-- The origins that R464 admits, in row-major order; the fixed one of a record with FXO. -/
def LRec.origins (r : LRec) : List (Nat × Nat) :=
  if r.fxo then [(r.gxo, r.gyo)]
  else
    let m := if r.pres.getLsbD 3 then 4 else 2
    (List.range ((160 - r.gh) / m + 1)).flatMap (fun j => (List.range ((192 - r.gw) / m + 1)).map (fun i => (m * i, m * j)))

/-- The rectangle's tiles at an origin. -/
def LRec.tilesAt (r : LRec) (x y : Nat) : List Nat := (List.range r.gh).flatMap (fun j => (List.range r.gw).map (fun i => tileNo (x + i) (y + j)))

/-- The origin at which a launch of a queue is placed now. -/
def State.place (s : State) (q prt : Nat) (r : LRec) : Option (Nat × Nat) :=
  let p := s.partition prt
  if !s.mg.rdyc.getLsbD 2 ∨ !(s.mg.rdyc.getLsbD 0 || s.mg.rdyc.getLsbD 1) ∨ (r.dvm ∧ fld s.mg.rdym 47 0 ≠ 2 ^ 48 - 1) ∨ 256 ≤ s.cp.gangs.length then none
  else r.origins.find? (fun o => (rectClusters o.1 o.2 r.gw r.gh).all (fun k => s.clusterOk p k && !s.reservedFor q k) && (r.tilesAt o.1 o.2).all s.tileFree)

/-- The clusters that a launch of a queue which cannot be placed reserves (R320): the fixed rectangle, or the one that R41 would choose
if every tile were free. What another queue has reserved before stays with that queue (R41). -/
def State.reservation (s : State) (q prt : Nat) (r : LRec) : List Nat :=
  let p := s.partition prt
  if r.fxo then r.clusters.filter (fun k => !s.reservedFor q k)
  else match r.origins.find? (fun o => (rectClusters o.1 o.2 r.gw r.gh).all (fun k => s.clusterOk p k && !s.reservedFor q k)) with
    | some o => rectClusters o.1 o.2 r.gw r.gh
    | none => []

/-! ### Completion records (R465) -/

/-- What a completion record reports. -/
structure Report where
  st : Nat
  reason : Nat := 0
  sweepLate : Bool := false
  fatals : Nat := 0
  first : Option (Word × Word) := none
  lrc : Nat := 0
  vwd : Word := 0
  rsc : Nat := 0
  umc : Nat := 0

def Report.bytes (p : Report) (now ltag : Word) : List Byte :=
  leBytes 1 p.st ++ leBytes 1 p.reason ++ leBytes 2 (p.sweepLate.toNat + 2 * p.first.isSome.toNat) ++ leBytes 4 p.lrc ++
    leBytes 8 p.vwd.toNat ++ leBytes 4 p.rsc ++ leBytes 4 p.umc ++ leBytes 8 now.toNat ++ leBytes 8 ltag.toNat ++
    leBytes 8 ((p.first.map (fun e => e.1.toNat)).getD 0) ++ leBytes 8 ((p.first.map (fun e => e.2.toNat)).getD 0) ++ leBytes 8 (p.fatals % 2 ^ 32)

/-- A waiting condition of a queue (R462). -/
def signalHolds (code : Nat) (x v : Word) : Bool :=
  match code with
  | 0 => x == v
  | 1 => x != v
  | 2 => decide (v.toNat ≤ x.toNat)
  | _ => decide (x.toNat < v.toNat)

/-- A completion is posted to the event ring of 256 (R470). -/
def State.post (s : State) (p : Posted) : State :=
  let l := s.mg.events ++ [p]
  { s with mg := { s.mg with events := l.drop (l.length - 256) } }

/-- A posted completion is written: the record, then its signal (R268, R465). -/
def State.settle (s : State) (p : Posted) : State :=
  let s := (s.cpWrite p.space p.crec p.bytes).getD s
  (s.cpWrite p.space p.csig (leBytes 8 p.cval.toNat)).getD s

/-- Report a completion (R268, R465): by its record and signal, or, while the command processor hangs, in the event ring (R470). -/
def State.report (s : State) (r : LRec) (p : Report) : State :=
  let e : Posted := { bytes := p.bytes s.time r.ltag, space := r.space, crec := r.crec, csig := r.csig, cval := r.cval }
  if s.cp.hung then s.post e else s.settle e

/-! ### Release (R46 to R51, R66, R491) -/

/-- Entry `i` of a membership table (R463): MEM and DRN of a rank. -/
def State.masks (s : State) (r : LRec) (rank : Nat) : BitVec 16 × BitVec 16 :=
  let w := if r.bmt = 0 then 0 else ((s.cpRead r.space (r.bmt + BitVec.ofNat 64 (4 * rank)) 4).map leNat).getD 0
  (setFld (BitVec.ofNat 16 w) 0 0 1, setFld (BitVec.ofNat 16 (w / 65536)) 0 0 (r.drn0 || r.ord).toNat)

/-- The decay table of a record (R463): entry (c, k) at 4 (23 (c − 1) + k). -/
def State.decayImage (s : State) (r : LRec) : Tbl (BitVec 32) :=
  if r.dtab = 0 then []
  else match s.cpRead r.space r.dtab 1380 with
  | none => []
  | some b => (List.range 345).map (fun i => (32 * (i / 23 + 1) + i % 23, BitVec.ofNat 32 (recNat b (4 * i) 4)))

/-- The registers that a release writes into a tile (R47, R145). -/
def Gang.regs (k : Gang) (g prt rank : Nat) : LaunchRegs :=
  let r := k.lrec
  { LaunchRegs.reset with
    tid := (k.tiles[rank]?.map tidOf).getD 0, xb := BitVec.ofNat 21 r.xb, rank := rank, gxo := r.gxo, gyo := r.gyo, gw := r.gw, gh := r.gh, pres := r.pres
    bw := if r.pres.getLsbD 4 then r.bw else 0, bh := if r.pres.getLsbD 4 then r.bh else 0
    part := r.part, ord := r.ord, dln := k.d, brt := k.b, steps := k.gst, lscl := powWord k.ls
    upv := BitVec.ofNat 64 (r.oent * 2 ^ 32 + r.uent), tent := r.tent, bent := r.bent, ctxl := r.ctxl, asid := r.asid, pasid := r.pasid
    prt := prt, dvs := r.dvs, ivl := if r.ivl = 0 then 2000 else r.ivl, gang := some g }

/-- A tile with its barrier masks (R47). -/
def Tile.masked (t : Tile) (m : BitVec 16 × BitVec 16) : Tile :=
  { t with blk := { t.blk with sy := { t.blk.sy with mem := m.1, drn := m.2, memP := m.1, drnP := m.2 } } }

/-- A tile as the release leaves it, but for its barrier masks (R47, R51): the image at offset 0, the rest of the pool zero. -/
def State.releasedTile (s : State) (g : Nat) (k : Gang) (prt rank : Nat) (image : Mem) (decay : Tbl (BitVec 32)) : Tile :=
  let b := Block.reset false
  let lr := k.regs g prt rank
  { pool := image
    par := []
    blk := { b with
      lr := lr
      ni := { b.ni with rmod := k.lrec.rmod, cw := k.lrec.cw }
      ct := { b.ct with ivt := BitVec.ofNat 32 (lr.ivl * 1500) } }
    vol := { Volatile.reset with mapg := s.mg.mgen, decayA := decay } }

/-- Each listed context starts at the task entry; released into wrap-up, at the wrap-up entry, as a diverted context
(R48, R66). -/
def Tile.startAll (t : Tile) (wrap : Bool) : Tile :=
  let r := t.blk.lr
  let t := (List.range 8).foldl (fun t c =>
    if r.ctxl.getLsbD c then t.modCtx c fun x =>
      if wrap then { (x.start (BitVec.ofNat 64 r.bent) [r.tent] (t.stackTop c)) with diverted := true }
      else x.start (BitVec.ofNat 64 r.tent) [] (t.stackTop c)
    else t) t
  t.modLr fun r => { r with started := true }

/-- Route tables of a record, for the classes in table mode (R356). -/
def State.routeImage (s : State) (r : LRec) : Tbl Nat :=
  if r.rtab = 0 then []
  else r.tableClasses.flatMap (fun k => match s.routeTable r k with
    | none => []
    | some b => ((List.range 1920).zip b).filterMap (fun e => if e.2 = 0 then none else some (2048 * (k - 2) + e.1, e.2.toNat)))

/-- A launch's images, registers, route modes and decay tables reach its tiles and their buddies, whose first commit this is; deduplication
entries are zeroed, exchange schedules set; and class 0 packets bring the barrier masks (R47, R302, R367, R369, R371, R491). -/
def State.loadGang (s : State) (g : Nat) (k : Gang) (prt : Nat) : State :=
  let ts := k.tiles
  let r := k.lrec
  let image := Mem.cells 0 ((s.cpRead r.space r.img r.isz).getD [])
  let decay := s.decayImage r
  let s := { s with rim := { s.rim with
    dedup := s.rim.dedup.filter (fun e => !ts.contains (e.1 % 65536))
    decayA := (List.range 24).foldl (fun t i => Tbl.put t (16 * i + prt) decay) s.rim.decayA
    decayP := s.rim.decayP.filter (fun e => e.1 % 16 != prt) } }
  let s := r.clusters.foldl (fun s c => s.modCluster c fun x => { x with sched := [], pre := false, post := false, mtlb := x.mtlb.kill (fun _ _ => true) }) s
  ((List.range ts.length).zip ts).foldl (fun s e =>
    let t := s.releasedTile g k prt e.1 image decay
    let m := s.masks r e.1
    ((s.setTile e.2 t).modFen e.2 fun _ =>
      if s.noFen e.2 then { Fen.reset with unprotected := true }
      else { Fen.reset with image := t.pool, block := ((t.masked m).startAll k.wrap).blk }).emit .cpx (.pool e.2) 0 0 (.sys (.masks g m.1 m.2)) 0 0 none)
    (s.modGang g fun k => { k with loaded := true, routes := s.routeImage r, stable := s.stableList r })

/-- The barrier masks of a launch are on their way. -/
def State.masking (s : State) (g : Nat) : Bool :=
  s.net.any (fun p => match p.body with | .sys (.masks h _ _) => h == g | _ => false)

/-- GANG_RELEASE (R47, R302, R367, R369, R371, R393, R491): the images, registers and masks of launch `n` go to its tiles; and when this
comes again and every tile has its masks, class 0 packets bring them the release. -/
def execGangRelease (s : State) : Host.Outcome State Fault Refusal :=
  let g := s.arg.n
  .next (match s.gang? g with
  | none => s
  | some k =>
    let prt := (Tbl.get s.cp.queues k.queue .reset).prt.toNat
    let ts := k.tiles
    if k.state ≠ .placed ∨ s.cp.hung ∨ s.mg.halts.contains 16 ∨ s.mg.halts.contains prt ∨ ts.any (fun t => (s.tile t).vol.failed) then s
    else if !k.loaded then s.loadGang g k prt
    else if s.masking g then s
    else (s.modGang g fun k => { k with state := .running }).tellTiles k (.release g))

/-- TILE_RELEASE (R47, R48, R51, R66): the barrier masks, or the release, reach tile `n` in the class 0 packet `i`; a tile that a restore
has started before has no use for them. -/
def execTileRelease (s : State) : Host.Outcome State Fault Refusal :=
  let core := s.arg.n
  .next (match s.arrival (.pool core) with
  | none => s
  | some p => match p.body with
    | .sys (.release g) =>
      let t := s.tile core
      if t.vol.failed || t.vol.halted || t.vol.replay.isSome then s
      else if t.blk.lr.gang ≠ some g ∨ t.blk.lr.started then s.dropPkt p.id
      else (s.dropPkt p.id).modTile core fun t => t.startAll (((s.gang? g).map (fun k => k.wrap)).getD false)
    | .sys (.masks g mem drn) =>
      let t := s.tile core
      if t.vol.failed || t.vol.halted || t.vol.replay.isSome then s
      else if t.blk.lr.gang ≠ some g ∨ t.blk.lr.started then s.dropPkt p.id
      else (s.dropPkt p.id).modTile core fun t => t.masked (mem, drn)
    | _ => s)

/-! ### Completion (R54, R72, R268, R312, R465) -/

/-- A tile's part of the conditions of R54 and R268: contexts at rest, queues and journals empty, engines and accumulators done
(R224), tokens landed, no lock held but by a binding, accepted reductions applied. -/
def State.tileDone (s : State) (t : Nat) : Bool :=
  let x := s.tile t
  x.blk.lr.started && !x.vol.failed && !x.vol.halted && x.vol.replay.isNone && x.vol.taskQ.isEmpty && x.vol.notices.isEmpty &&
    x.blk.ni.journal.isEmpty && x.blk.en.copies.isEmpty && x.blk.en.queries.isEmpty && x.blk.arr.queue.isEmpty &&
    x.blk.arr.accs.toList.all (fun a => !a.ifl) &&
    (List.range 8).all (fun c => (x.ctx c).outs.isEmpty && (s.resting t c || (match (x.ctx c).run with | .stopped _ => true | _ => false))) &&
    x.unbind.blk.en.locks.toList.all (fun l => l.isNone) &&
    !s.heldReduction t && !(x.fullSlots.any (fun e => (x.slotHdr e.1 e.2).getLsbD 55))

/-- The tiles of a launch by rank, in their places or, switched out, as they are saved. -/
def State.tilesOf (s : State) (g : Nat) (k : Gang) : List Tile :=
  if k.state = .switchedOut then (List.range k.tiles.length).filterMap (s.savedTile g k) else k.tiles.map s.tile

/-- Is a launch complete? While the command processor hangs, fatal reports stay at the tiles, and its completion takes them (R35). -/
def State.gangDone (s : State) (g : Nat) (k : Gang) : Bool :=
  k.failed ||
    (k.state == .running && k.tiles.all s.tileDone && (s.cp.hung || !s.cp.reports.any (fun e => e.1 == g)) &&
      (k.tiles.foldl (fun (a : BitVec 32) t => a + (s.tile t).blk.ni.spc) 0) == 0) ||
    (k.state == .switchedOut && k.d != 0xFFFFFFFFFFFFFFFF && decide (k.d.toNat ≤ s.time.toNat))

/-- Status of a launch (R67, R72, R74, R445). One with W = 0, so that B is D, whose contexts stop at D with none diverted is late: R72's table
names none of its rows for it (DESIGN CHOICE, entry 68). -/
def State.status (s : State) (g : Nat) (k : Gang) : Nat :=
  let any := fun (f : Ctx → Bool) => (s.tilesOf g k).any (fun t => t.blk.cx.toList.any f)
  let rsc := (s.tilesOf g k).any (fun t => t.blk.ni.rsc != 0)
  if k.failed then 3
  else if k.state = .switchedOut ∨ any (fun c => c.run == .stopped false) ∨ (rsc ∧ k.lrec.bent = 0) then 2
  else if any (fun c => c.diverted) ∨ rsc then 1
  else 0

/-- What is left in a tile's class 2 to 5 queues and divert slots. -/
def Tile.unconsumed (t : Tile) : Nat := t.vol.rq.length + t.fullSlots.length

/-- A packet belongs to a launch of these tiles: it comes from one or goes to one; of class 7, what comes from one, since a tile's NI also
serves the fen store of another launch's tile. -/
def Pkt.ofTiles (p : Pkt) (ts : List Nat) : Bool :=
  let mine := fun (o : Owner) => match o with | .pool t => ts.contains t | _ => false
  mine p.src || (p.cls != 7 && mine p.dst)

/-- A tile that a launch leaves: its queues are discarded and what was left in them counted (R312), its locks, slots and lease released
(R268), its interval dropped (R492). -/
def State.vacate (s : State) (t : Nat) : State :=
  let s := (s.unpinAll t).modTile t fun x =>
    let n := x.unconsumed
    let x := x.fullSlots.foldl (fun x e => x.clearSlot e.1 e.2) x
    let x := (x.modNi fun k => { k with journal := [], reqs := [], rtx := [], umc := k.umc + BitVec.ofNat 32 n }).modArr fun a =>
      { a with req := false, queue := [], mx := none, slots := a.slots.map (fun _ => WSlot.empty) }
    let x := { x with blk := { x.blk with cx := x.blk.cx.map (fun (c : Ctx) => { c with run := .idle, apnd := [], outs := [] }) } }
    let x := (x.modEn fun e => { e with locks := Vector.replicate 48 none, copies := [], queries := [] }).modCt fun k => { k with dlb := 0, dcnt := 0 }
    (x.modLr fun r => { r with gang := none, started := false }).modVol fun v => { Volatile.reset with mapg := v.mapg, failed := v.failed, detected := v.detected, beat := v.beat }
  let s := s.modFen t fun _ => { Fen.reset with unprotected := s.noFen t }
  let s := s.modCluster (clusterOf t) fun c => { c with reqs := c.reqs.filter (fun r => r.acc == 3 || r.pos != posOf t) }
  if s.holds t then s.nextLease (clusterOf t) else s

/-- A request that a saved tile had under way, which its owner has not seen, is applied there (R268): its launch is reported without
having resumed (R74). -/
def State.serveSaved (s : State) (r : Req) : State :=
  if turnOf (s.dedupOf r.owner r.src).done r.seq ≠ .now then s
  else match r.owner, r.op with
  | .slice k, .push _ _ _ _ _ =>
    let p : Pkt := { id := s.nextId, src := .pool r.src, dst := .slice k, cls := 6, seq := r.seq, body := .req r, stage := .arrived, pcn := 0, mask := 0, bytes := 0, rel := none }
    (match execGradientPushArrival { s with net := [p], arg := { s.arg with n := k, i := p.id, b := false } } with
    | .next t => { t with net := s.net, arg := s.arg }
    | _ => s)
  | .slice k, .reduce op w32 a x =>
    let s := s.flushSlice k
    (s.putDev (applyComb s.dev { src := r.src, op := op, w32 := w32, addr := a, x := x })).complete r.owner r none
  | .slice _, .append _ _ _ rows => (s.putDev (rows.foldl (fun (m : Mem) (e : Nat × List Byte) => Mem.write m e.1 e.2) s.dev)).complete r.owner r none
  | .slice k, _ =>
    let s := s.flushSlice k
    (s.putDev (memServe s.dev s.dev (s.sliceDecay k r.part) r).2).complete r.owner r none
  | .port _, _ => { s with host := (memServe s.host s.host (s.sliceDecay 0 r.part) r).2 }.complete r.owner r none
  | _, _ => s

/-- The journals of a launch that ends switched out drain, and its reductions are applied (R74, R268). -/
def State.drainSaved (s : State) (g : Nat) (k : Gang) : State :=
  if k.state ≠ .switchedOut ∨ k.failed then s
  else (List.range 24).foldl State.flushSlice ((s.tilesOf g k).foldl (fun s t => t.blk.ni.reqs.foldl State.serveSaved s) s)

/-- A launch leaves the table: packets between its tiles are discarded, and a closing queue without launches is free
(R466). -/
def State.retireGang (s : State) (g : Nat) (k : Gang) : State :=
  let ts := k.tiles
  let s : State := if k.state = .switchedOut then s
    else ts.foldl State.vacate { s with net := s.net.filter (fun (p : Pkt) => !p.ofTiles ts) }
  let keep := fun (e : Nat) => e / 65536 != g
  let live := fun (e : Nat × Gang) => e.2.queue == k.queue
  let s : State := { s with cp := { s.cp with
    gangs := Tbl.drop s.cp.gangs g, reports := s.cp.reports.filter (fun e => e.1 != g)
    saves := s.cp.saves.filter (fun e => keep e.1), rings := s.cp.rings.filter (fun e => keep e.1) } }
  let q : HostQ := Tbl.get s.cp.queues k.queue .reset
  if q.state == 3 && !s.cp.gangs.any live then
    { s with cp := { s.cp with queues := Tbl.put s.cp.queues k.queue { q with state := 0 } } }
  else s

/-- A sum over tiles. -/
def sumOf (ts : List Tile) (f : Tile → Nat) : Nat := (ts.map f).foldl (fun a b => a + b) 0

/-- What the completion of a launch reports (R72, R312, R401, R427, R428), fatal reports that the command processor has not taken
among it (R35). -/
def State.reportOf (s : State) (g : Nat) (k : Gang) : Report :=
  let ts := s.tilesOf g k
  let more := s.cp.reports.filter (fun e => e.1 == g)
  { st := s.status g k, sweepLate := k.sweepLate, fatals := k.fatals + more.length, first := k.firstFatal.or (more.head?.map (fun e => e.2))
    lrc := sumOf ts (fun t => t.blk.ni.lrc.toNat + (t.blk.cx.toList.map (fun c => c.apnd.length)).foldl (fun a b => a + b) 0)
    vwd := ts.foldl (fun (a : Word) t => a ||| t.blk.lr.vwd) 0
    rsc := sumOf ts (fun t => t.blk.ni.rsc.toNat), umc := sumOf ts (fun t => t.blk.ni.umc.toNat + t.unconsumed) }

/-- GANG_COMPLETION (R54, R72, R74, R268, R312, R427, R465): launch `n` completes with its status. -/
def execGangCompletion (s : State) : Host.Outcome State Fault Refusal :=
  let g := s.arg.n
  .next (match s.gang? g with
  | none => s
  | some k => if s.gangDone g k then (((s.drainSaved g k).retireGang g k).report k.lrec (s.reportOf g k)) else s)

/-! ### Gang switch (R74, R76, R242, R243, R447 to R449) -/

/-- The command processor announces a switch of a launch (R76): class 0 packets bring its time to the tiles. A launch whose save areas
are unfit is not switched, and the host is told so (R243). -/
def State.announce (s : State) (g : Nat) (k : Gang) (w : Word) (unfit : Bool) : State :=
  if k.state ≠ .running ∨ s.cp.hung ∨ w.toNat < s.time.toNat + 20000 ∨ (k.b.toNat ≤ w.toNat ∧ w.toNat < k.d.toNat) then s
  else if unfit || k.lrec.savb == 0 || (List.range k.tiles.length).any (fun i => (k.area i).isNone) then
    { s with mg := { s.mg with switchErrors := s.mg.switchErrors ++ [g] } }
  else (s.modGang g fun k => { k with switchAt := some w }).tellTiles k (.switchAt g w)

/-- GANG_SWITCH_ANNOUNCEMENT (R74, R76, R243): a switch of launch `n` at `w`, at least 20 µs ahead and not between B and D; with `b`
the save areas are found too small or not pinned. With `j` not 0 the announcement reaches tile `n` in the class 0 packet `i`. -/
def execGangSwitchAnnouncement (s : State) : Host.Outcome State Fault Refusal :=
  .next (if s.arg.j ≠ 0 then
    match s.arrival (.pool s.arg.n) with
    | none => s
    | some p => (match p.body with
      | .sys (.switchAt g w) =>
        if (s.tile s.arg.n).vol.failed then s
        else if (s.tile s.arg.n).blk.lr.gang = some g then (s.dropPkt p.id).modTile s.arg.n fun t => t.modVol fun v => { v with switchAt := some w }
        else s.dropPkt p.id
      | _ => s)
  else match s.gang? s.arg.n with
  | none => s
  | some k => s.announce s.arg.n k s.arg.w s.arg.b)

/-- A tile stops for the switch at an instruction boundary, where a diversion that is due comes first (R76, R148); a checkpoint boundary
ends before (R424). -/
def State.stopAt (s : State) (t : Nat) : State :=
  let v := (s.tile t).vol
  if v.failed || v.replay.isSome || v.switched || !s.switchDue t || !s.unheld t then s
  else (s.brimStep t).modTile t fun x => x.modVol fun v => { v with switched := true }

/-- A packet of the mesh, the NI it waits at, or the one it has come to. -/
def Pkt.inMesh (p : Pkt) : Bool :=
  match p.stage with
  | .queued => chipletOf p.src == none
  | .held => chipletOf p.src == none
  | .hop _ _ => true
  | .arrived => chipletOf p.dst == none
  | _ => false

/-- A request that has come to its owner ahead of one that has not. -/
def State.ahead (s : State) (p : Pkt) : Bool :=
  match p.body with
  | .req r => p.stage == .arrived && turnOf (s.dedupOf p.dst r.src).done r.seq == .early
  | _ => false

/-- Bytes of what a spill ring holds: messages and notices as their queues do (R313), packets as a link does. -/
def Spill.size : Spill → Nat
  | .msg m => if m.spawn then 32 else 160
  | .notice _ => 32
  | .pkt p => p.linkBytes
def spillBytes (l : List Spill) : Nat := (l.map Spill.size).foldl (fun a b => a + b) 0

/-- A packet leaves the mesh into the spill buffer of a router, 16 KiB (R313). -/
def Tile.routerTakes (t : Tile) (p : Pkt) : Option Tile :=
  if spillBytes (t.vol.rspill.map Spill.pkt) + p.linkBytes ≤ 16384 then some (t.modVol fun v => { v with rspill := v.rspill ++ [p] }) else none
/-- An NI catches a packet in what the queues and the router leave of its spill ring (R314). -/
def Tile.ringTakes (t : Tile) (p : Pkt) : Option Tile :=
  if spillBytes t.vol.ring + p.linkBytes ≤ 65536 - 11520 - 16384 then some (t.modVol fun v => { v with ring := v.ring ++ [.pkt p] }) else none

/-- The tiles of a launch, those nearest to where a packet is first: the tile whose router it stands at, its source or its destination. -/
def State.nearest (s : State) (ts : List Nat) (p : Pkt) : List Nat :=
  match p.stage, p.dst, p.src with
  | .hop x y, _, _ =>
    let far := fun (t : Nat) => ((s.routerOf t).1 - x).natAbs + ((s.routerOf t).2 - y).natAbs
    (match ts with
    | [] => []
    | t :: r => (r.foldl (fun a b => if far b < far a then b else a) t) :: ts)
  | .arrived, .pool t, _ => if ts.contains t then t :: ts else ts
  | _, _, .pool t => if ts.contains t then t :: ts else ts
  | _, _, _ => ts

/-- The packets of a launch leave the mesh, each into the spill buffer of the nearest router of the gang that has room, else into a spill
ring (R76, R314); each channel's stay in order. -/
def State.spill (s : State) (ts : List Nat) : State :=
  let (out, stay) := s.net.partition (fun (p : Pkt) => p.ofTiles ts && p.cls != 7 && (p.inMesh || s.ahead p))
  out.foldl (fun s p =>
    let near := s.nearest ts p
    match (near.findSome? (fun t => ((s.tile t).routerTakes p).map (fun x => (t, x)))).or (near.findSome? (fun t => ((s.tile t).ringTakes p).map (fun x => (t, x)))) with
    | some (t, x) => s.setTile t x
    | none => { s with net := s.net ++ [p] }) { s with net := stay }

/-- GANG_SWITCH (R76, R446): at T the tiles of launch `n` stop; one under repair follows when its replay has ended. Once all have
stopped, its packets leave the mesh; owners' answers that enter it later do so when this happens again. -/
def execGangSwitch (s : State) : Host.Outcome State Fault Refusal :=
  .next (match s.gang? s.arg.n with
  | none => s
  | some k =>
    if !(k.state == .running || k.state == .switching) || k.switchAt.isNone || !k.tiles.any s.switchDue then s
    else
      let s := k.tiles.foldl State.stopAt (s.modGang s.arg.n fun k => { k with state := .switching, mgAt := if k.state = .running then s.mg.mgen else k.mgAt })
      if k.tiles.all (fun t => (s.tile t).vol.switched) then s.spill k.tiles else s)

/-- A memory laid into another from an address upward; both keep the canonical form. -/
def Mem.blit (m : Mem) (a n : Nat) (src : Mem) : Mem :=
  m.filter (fun e => e.1 < a) ++ (src.filter (fun e => e.1 < n)).map (fun e => (a + e.1, e.2)) ++ m.filter (fun e => a + n ≤ e.1)

/-- Header word 0 of a save area (R242). -/
def saveWord0 (k : Gang) (t : Nat) (vld : Bool) : Nat := 2 ^ 63 * vld.toNat + tileX t * 2 ^ 40 + tileY t * 2 ^ 32 + k.mgAt.toNat

/-- What the save engine writes into an area before VLD (R242, R447): state block, pool, spill ring and header words. The manual gives the
form of neither block nor ring: their bytes are free, and the block's number, which word 2 holds, is at most 24,576. -/
def State.saveImage (s : State) (k : Gang) (t a : Nat) : State :=
  let free := fun (off n : Nat) => Mem.cells 0 ((List.range n).map (fun i => Config.freeByte s.fresh (off + i)))
  let n := (Config.freeWord s.fresh).toNat % 24577
  let head := Mem.cells 0 (leBytes 8 (saveWord0 k t false) ++ leBytes 8 ((k.switchAt.getD 0).toNat) ++ leBytes 8 n ++ List.replicate 104 0)
  s.putDev ((((s.dev.blit (a + 128) n (free 128 n)).blit (a + 0x10000) 0x200000 (s.tile t).pool).blit (a + 0x210000) 0x10000 (free 0x210000 0x10000)).blit a 128 head)

/-- A tile's queues and its router's spill buffer move into the spill ring (R314): messages and notices in arrival-number order, then
the router's packets, then those that the NI has caught. -/
def Tile.toRing (t : Tile) : Tile :=
  t.unqueued.modVol fun v => { v with ring := t.queued ++ v.rspill.map Spill.pkt ++ v.ring, rspill := [] }
/-- The size of a tile's save, as the save engine computes it before it writes (R242, R447). -/
def Tile.saveBytes (t : Tile) : Nat := 0x210000 + spillBytes t.toRing.vol.ring

/-- The packets of a spill ring. -/
def ringPkts (l : List Spill) : List Pkt :=
  l.filterMap (fun m => match m with
    | .pkt p => some (if p.stage = Stage.arrived then p else { p with stage := Stage.queued })
    | _ => none)

/-- A launch whose tiles are all saved leaves its tiles (R76, R77, R314, R362). -/
def State.switchOut (s : State) (g : Nat) (k : Gang) : State :=
  let ts := k.tiles
  let s := k.lrec.clusters.foldl (fun s c => s.modCluster c fun x => { x with mtlb := x.mtlb.kill (fun _ _ => true) }) s
  let s := { s with net := s.net.filter (fun (p : Pkt) => !p.ofTiles ts) }
  let s := ts.foldl (fun s t =>
    let x := s.tile t
    let key := g * 65536 + x.blk.lr.rank
    let b := { x.blk with en := { x.blk.en with copies := x.blk.en.copies.map (fun c => { c with slot := none, tag := none }) } }
    let s := { s with cp := { s.cp with saves := Tbl.put s.cp.saves key b, rings := Tbl.put s.cp.rings key x.vol.ring } }
    (s.modTile t fun x => x.modVol fun v => { v with dix := [] }).vacate t) s
  s.modGang g fun k => { k with state := .switchedOut, switchAt := none
                                probes := k.probes.map (fun (e : Nat × List Probe) => (e.1, e.2.map (fun (p : Probe) => { p with sum := 0, black := false }))) }

/-- The command processor takes the save reports of a launch (R35, R447, R449): a fault leaves the save incomplete, and the
host is told so; when every tile is
saved, the launch is switched out. -/
def State.takeSaves (s : State) (g : Nat) : State :=
  match s.gang? g with
  | none => s
  | some k =>
    if s.cp.hung ∨ k.state ≠ .switching then s
    else if k.tiles.any (fun t => (s.tile t).vol.saveFault) then
      { s with mg := { s.mg with saveErrors := s.mg.saveErrors ++ [g] } }.modGang g fun k => { k with state := .saveIncomplete }
    else if k.tiles.all (fun t => (s.tile t).vol.saved) then s.switchOut g k
    else s

/-- Requests of a launch that an owner has accepted and not finished (R353). -/
def State.banked (s : State) (ts : List Nat) : Bool := s.rim.bank.any (fun e => e.2.any (fun h => ts.contains h.req.src))

/-- SAVE (R242, R447, R449): the save engine of tile `n` has written its area but for VLD; then, when this comes again, VLD. With `b` it
met a write fault; then, and where the save would overrun its area, it leaves VLD clear. The command processor takes its report. -/
def execSaveTile (s : State) : Host.Outcome State Fault Refusal :=
  let core := s.arg.n
  .next (match (s.tile core).blk.lr.gang with
  | none => s
  | some g => match s.gang? g with
    | none => s
    | some k =>
      let t := s.tile core
      if k.state ≠ .switching ∨ !t.vol.switched ∨ t.vol.saved ∨ t.vol.saveFault ∨ t.vol.phase ≠ .none ∨ !s.drained core ∨ s.banked k.tiles ∨
          s.net.any (fun p => p.ofTiles k.tiles && p.cls != 7) then s
      else match k.area t.blk.lr.rank with
        | none => s
        | some a =>
          if s.arg.b || (!t.vol.written && decide (saveSize < t.saveBytes)) then
            ((s.putDev (Mem.write s.dev (a + 7) [Mem.read s.dev (a + 7) &&& 0x7F])).modTile core fun t => t.modVol fun v => { v with saveFault := true }).takeSaves g
          else if !t.vol.written then (s.saveImage k core a).modTile core fun t => t.toRing.modVol fun v => { v with written := true }
          else ((s.putDev (Mem.write s.dev a (leBytes 8 (saveWord0 k core true)))).modTile core fun t => t.modVol fun v => { v with saved := true }).takeSaves g)

/-- A tile goes on where it was stopped for a switch: what its spill ring and spill buffer hold goes back (R314). -/
def State.goBack (s : State) (t : Nat) : State :=
  let v := (s.tile t).vol
  { s with net := s.net ++ ringPkts (v.ring ++ v.rspill.map Spill.pkt) }.modTile t fun x =>
    (v.ring.foldl Tile.requeue x).modVol fun v => { v with ring := [], rspill := [], switchAt := none, switched := false, written := false, saved := false, saveFault := false }

/-- SAVE_INCOMPLETE_RESOLUTION (R449): the host driver resumes launch `n` in place, or, with `b`, ends it with status
failed. -/
def execSaveIncompleteResolution (s : State) : Host.Outcome State Fault Refusal :=
  let g := s.arg.n
  .next (match s.gang? g with
  | none => s
  | some k =>
    if k.state ≠ .saveIncomplete then s
    else if s.arg.b then s.doubleFault g
    else k.tiles.foldl State.goBack (s.modGang g fun k => { k with state := .running, switchAt := none }))

/-- GANG_RESUME (R74, R76, R77, R314, R448): launch `n` returns to its tiles, all of them free again, from areas with VLD
set; each owes a full boundary before it issues, but for those that a twinning leaves without a fen store (R442). The launch's route tables
are those that Causeway updates have kept (R356 says that they are reloaded, not what they hold after an update: DESIGN CHOICE, entry 68). The cluster units get the schedules of their positions back (R367), and spilled packets
are injected again. -/
def execGangResume (s : State) : Host.Outcome State Fault Refusal :=
  let g := s.arg.n
  .next (match s.gang? g with
  | none => s
  | some k =>
    let ts := k.tiles
    let vld := fun (rank : Nat) => match k.area rank with | some a => (Mem.read s.dev (a + 7)).getLsbD 7 | none => false
    if k.state ≠ .switchedOut ∨ s.cp.hung ∨ !s.mg.halts.isEmpty ∨ (k.d ≠ 0xFFFFFFFFFFFFFFFF ∧ k.d.toNat ≤ s.time.toNat) ∨ !ts.all s.tileFree ∨ !(List.range ts.length).all vld then s
    else
      let keys := (List.range ts.length).map (fun i => g * 65536 + i)
      let out := keys.flatMap (fun i => ringPkts (Tbl.get s.cp.rings i []))
      let s := ((List.range ts.length).zip ts).foldl (fun s e => ((s.fromArea g k e.1 e.2 false).getD s)) s
      let s := k.lrec.clusters.foldl State.rebuildSchedules s
      let s := { s with net := s.net ++ out }
      s.modGang g fun k => { k with state := .running
                                    probes := k.probes.map (fun (e : Nat × List Probe) => (e.1, e.2.map (fun (p : Probe) => { p with left := s.membersOf k e.1 }))) })

end Sys2Proof.Machine
end

