-- ==== Sys2Proof/Machine/HostQueue.lean ====
section
/-! DEFINITION. Host queues: descriptors and partitions (R456, R466 to R469, R498), the stride order and the activity
forecast (R317 to R322), and the packets (R461, R462, R464). An event that is not due changes nothing. -/

namespace Sys2Proof.Machine

/-! ### Queues -/

def State.queue (s : State) (q : Nat) : HostQ := Tbl.get s.cp.queues q .reset
def State.modQueue (s : State) (q : Nat) (f : HostQ → HostQ) : State :=
  { s with cp := { s.cp with queues := Tbl.put s.cp.queues q (f (s.queue q)) } }
/-- Packets in the ring (R466). -/
def HostQ.size (k : HostQ) : Nat := 2 ^ (k.lsz.toNat + 4)
/-- A packet stands in the ring: TAIL is ahead of HEAD. -/
def HostQ.filled (k : HostQ) : Bool := decide (0 < (k.tail - k.head).toNat) && decide ((k.tail - k.head).toNat < 2 ^ 31)
/-- The command processor accepts host queues and does not hang (R40, R470). -/
def State.cpLive (s : State) : Bool := s.mg.rdyc.getLsbD 2 && !s.cp.hung
/-- A debug halt freezes the queue (R450). -/
def State.frozen (s : State) (q : Nat) : Bool := s.mg.halts.contains 16 || s.mg.halts.contains (s.queue q).prt.toNat
/-- The translations of a queue's addresses (R462, R466): its PASID, and of the ASIDs of its partition the first (entry 12). -/
def State.queueSpace (s : State) (q : Nat) : CpSpace :=
  { asid := BitVec.ofNat 12 (s.partition (s.queue q).prt.toNat).abas, pasid := (s.queue q).pasid }
/-- The launches of a queue that have not written their completion records. -/
def State.launchesOf (s : State) (q : Nat) : List (Nat × Gang) := s.cp.gangs.filter (fun e => e.2.queue == q)

/-- Is a queue in A: tickets, active, a packet ready (R317)? -/
def State.inA (s : State) (q : Nat) : Bool :=
  let k := s.queue q
  k.tkt != 0 && k.state == 1 && k.filled && !s.frozen q &&
    (match k.wait with
      | none => true
      | some .fence => (s.launchesOf q).isEmpty
      | some _ => false)

/-- Queues that are not in A any more will have to join again (R317, R319). -/
def State.leaveA (s : State) : State :=
  { s with cp := { s.cp with queues := s.cp.queues.map (fun (e : Nat × HostQ) => (e.1, if s.inA e.1 then e.2 else { e.2 with joined := false })) } }

/-- The queue's turn, if it runs, ends, and with it the pass (R317); a queue that it has emptied leaves A. -/
def State.endTurn (s : State) (q : Nat) : State :=
  if s.cp.turn = some q then { s with cp := { s.cp with turn := none, blocked := [] } }.leaveA else s
/-- What the queue's head launch has reserved is given up (R320). -/
def State.unreserve (s : State) (q : Nat) : State := { s with cp := { s.cp with reserved := Tbl.drop s.cp.reserved q } }
/-- The queue enters the error state (R467). -/
def State.queueError (s : State) (q err : Nat) : State :=
  ((s.modQueue q fun k => { k with state := 2, err := err, wait := none, joined := false }).endTurn q).unreserve q
/-- `n` packets are consumed. -/
def State.consume (s : State) (q n : Nat) : State := s.modQueue q fun k => { k with head := k.head + BitVec.ofNat 32 n, wait := none }
/-- The head packet waits, which ends the turn without charge (R317). -/
def State.park (s : State) (q : Nat) (w : QWait) : State := (s.modQueue q fun k => { k with wait := some w, joined := false }).endTurn q

/-! ### The stride order (R317 to R319) -/

/-- GP (R317): the lowest Pass in A, or the last charged. -/
def State.globalPass (s : State) : Nat :=
  let l := (s.cp.queues.filter (fun e => e.2.joined && s.inA e.1)).map (fun e => e.2.pass)
  match l with
  | [] => s.cp.lastPass
  | a :: r => r.foldl min a

/-- A number put in its place in an ascending list. -/
def putNat (n : Nat) : List Nat → List Nat
  | [] => [n]
  | m :: l => if n ≤ m then n :: m :: l else m :: putNat n l

/-- Queues that have entered A join, each with its Pass raised to GP (R317); of several that have, the lower number joins first (R317 gives
them no order: DESIGN CHOICE, entry 33). -/
def State.join (s : State) : State :=
  let s := s.leaveA
  let new := (s.cp.queues.filter (fun (e : Nat × HostQ) => s.inA e.1 && !e.2.joined)).foldl (fun l e => putNat e.1 l) []
  new.foldl (fun s q => s.modQueue q fun k => { k with pass := max k.pass s.globalPass, joined := true }) s

/-- The queue in A with the lowest Pass, ties to the lower number, among those a pass has not found blocked. -/
def State.choose (s : State) : Option Nat :=
  (s.cp.queues.filter (fun e => s.inA e.1 && !s.cp.blocked.contains e.1)).foldl (fun (b : Option Nat) e => match b with
    | none => some e.1
    | some c => if e.2.pass < (s.queue c).pass ∨ (e.2.pass = (s.queue c).pass ∧ e.1 < c) then some e.1 else b) none

/-- The stride of a launch (R318): slack factor, tickets. With tickets of 0, written during the queue's turn, the formula has no value: the
turn goes on, and the launch is charged 0 (DESIGN CHOICE, entry 68). -/
def strideOf (tkt slkt now : Nat) (r : LRec) : Nat :=
  let b := r.b.toNat
  let f := if r.d = 0xFFFFFFFFFFFFFFFF ∨ now + slkt ≤ b then 1 else if b ≤ now then 16 else 1 + 15 * (slkt - (b - now)) / slkt
  2 ^ 20 / min 65535 (tkt * f)

/-! ### Reading packets (R461) -/

/-- The limits of a packet's operands; every other bit of it is zero. -/
def packetOk (e : Nat → Word) : Bool :=
  let zero := fun (from_ : Nat) => (List.range 8).all (fun i => i < from_ || e i == 0)
  let al := fun (i n : Nat) => (e i).toNat % n == 0
  fld (e 0) 55 0 == 0 &&
  match fld (e 0) 63 56 with
  | 1 => al 1 256 && zero 2
  | 2 => al 1 256 && al 2 8 && zero 3
  | 3 => 1 ≤ (e 1).toNat && (e 1).toNat ≤ 2 ^ 32 && zero 2
  | 4 => zero 1
  | 5 => al 1 8 && (e 3).toNat ≤ 3 && 1 ≤ (e 4).toNat && (e 4).toNat ≤ 255 && zero 5
  | 6 => al 1 8 && (e 3).toNat ≤ 3 && zero 4
  | 7 => al 1 8 && (e 3).toNat ≤ 1 && zero 4
  | 8 => al 1 8 && 1 ≤ (e 6).toNat && (e 6).toNat ≤ 32 && zero 7
  | 9 => al 1 8 && al 2 8 && al 3 128 && zero 4
  | 10 => zero 1
  | 11 => zero 2
  | 12 => zero 2
  | _ => false

/-- What stands at the head of a queue. -/
inductive HeadPacket where
  | empty
  | unreadable
  | malformed
  | packet (words : List Word)
  deriving DecidableEq, Repr

def State.headPacket (s : State) (q : Nat) : HeadPacket :=
  let k := s.queue q
  if k.state ≠ 1 ∨ !k.filled then .empty
  else match s.cpRead (s.queueSpace q) (k.ring + BitVec.ofNat 64 (64 * (k.head.toNat % k.size))) 64 with
  | none => .unreadable
  | some b =>
    let ws := (List.range 8).map (fun i => BitVec.ofNat 64 (recNat b (8 * i) 8))
    if packetOk (fun i => ws.getD i 0) then .packet ws else .malformed

/-! ### Packets (R462) -/

/-- Run a packet of a type at the head of the queue whose turn runs. -/
def State.turnPacket (s : State) (typ : Nat) (f : State → Nat → (Nat → Word) → State) : State :=
  match s.cp.turn with
  | none => s
  | some q =>
    if !s.cpLive || s.frozen q then s
    else match s.headPacket q with
      | .packet ws => if fld (ws.getD 0 0) 63 56 = typ then f s q (fun i => ws.getD i 0) else s
      | _ => s

/-- A valid launch is dispatched at an origin (R41, R317, R393): its tiles are its own, its queue is charged, its turn
ends. -/
def State.dispatch (s : State) (q : Nat) (r : LRec) (o : Nat × Nat) : State :=
  let g := s.cp.nextGang
  let r := { r with gxo := o.1, gyo := o.2 }
  let k : Gang :=
    { lrec := r, queue := q, state := .placed, d := r.d, b := r.b, gst := r.gst0, srq := false, stepped := false, ls := r.ls0, cln := 0, doms := [], probes := []
      wrap := r.d != 0xFFFFFFFFFFFFFFFF && decide (r.b.toNat ≤ s.time.toNat), fatals := 0, firstFatal := none, sweepLate := false
      failed := false, switchAt := none, mgAt := 0, routes := [], began := s.fresh }
  let pass := (s.queue q).pass + strideOf (s.queue q).tkt.toNat s.mg.slkt.toNat s.time.toNat r
  let s := (r.tilesAt o.1 o.2).foldl (fun s t => s.modTile t fun x => x.modLr fun l => { l with gang := some g, started := false }) s
  let s := { s with cp := { s.cp with
    gangs := Tbl.put s.cp.gangs g k, nextGang := g + 1, lastPass := pass, reserved := Tbl.drop s.cp.reserved q } }
  ((s.consume q 1).modQueue q fun k => { k with pass := pass }).endTurn q

/-- A launch that cannot be placed reserves the clusters of its rectangle, and the pass goes on among the other queues
(R320). -/
def State.reserve (s : State) (q : Nat) (r : LRec) : State :=
  { s with cp := { s.cp with
    reserved := Tbl.put s.cp.reserved q (s.reservation q (s.queue q).prt.toNat r)
    turn := if s.cp.turn = some q then none else s.cp.turn, blocked := s.cp.blocked ++ [q] } }

/-- A launch packet (R462, R464): the record is read and checked; an invalid one, or one whose time has passed (R66, R67),
completes at once. A record that cannot be read is invalid with reason 1: it names no address to report to, and the event ring takes the
report (DESIGN CHOICE, entry 12). -/
def State.launch (s : State) (q : Nat) (a : Word) (size : Option (Nat × Nat)) : State :=
  let prt := (s.queue q).prt.toNat
  match s.cpRead (s.queueSpace q) a 256 with
  | none => (((s.unreserve q).post { bytes := ({ st := 4, reason := 1 } : Report).bytes s.time 0, space := s.queueSpace q, crec := 0, csig := 0, cval := 0 })).consume q 1
  | some b =>
    let r := readRec b
    let r := match size with | some (w, h) => { r with gw := w, gh := h } | none => r
    match (if recZero b then s.invalid r prt else some 1) with
    | some n => ((State.unreserve s q).report r { st := 4, reason := n }).consume q 1
    | none =>
      let passed := fun (t : Word) => r.d != 0xFFFFFFFFFFFFFFFF && decide (t.toNat ≤ s.time.toNat)
      if passed r.d || (r.bent == 0 && passed r.b) then
        ((State.unreserve s q).report r { st := 2 }).consume q 1
      else match s.place q prt r with
        | some o =>
          if !r.fxo && s.cyclic { r with gxo := o.1, gyo := o.2 } then ((State.unreserve s q).report r { st := 4, reason := 8 }).consume q 1
          else s.dispatch q r o
        | none => s.reserve q r

def State.runLaunch (s : State) (q : Nat) (e : Nat → Word) : State := s.launch q (e 1) none
/-- LAUNCHI: GW and GH come from memory; ERR 2 where they cannot be read. -/
def State.runLaunchi (s : State) (q : Nat) (e : Nat → Word) : State :=
  match s.cpRead (s.queueSpace q) (e 2) 2 with
  | some b => s.launch q (e 1) (some (recNat b 0 1, recNat b 1 1))
  | none => s.queueError q 2

/-- LOOP: the packet after it and the passes left; a fifth nested loop is ERR 4. -/
def State.runLoop (s : State) (q : Nat) (e : Nat → Word) : State :=
  let k := s.queue q
  if 4 ≤ k.loops.length then s.queueError q 4
  else (s.consume q 1).modQueue q fun k => { k with loops := (k.head.toNat, (e 1).toNat) :: k.loops }

def State.runEndloop (s : State) (q : Nat) (_ : Nat → Word) : State :=
  match (s.queue q).loops with
  | [] => s.queueError q 4
  | (a, n) :: r =>
    if n ≤ 1 then (s.consume q 1).modQueue q fun k => { k with loops := r }
    else s.modQueue q fun k => { k with head := BitVec.ofNat 32 a, loops := (a, n - 1) :: r }

def State.runIf (s : State) (q : Nat) (e : Nat → Word) : State :=
  match s.cpWord (s.queueSpace q) (e 1) with
  | none => s.queueError q 2
  | some x => s.consume q (if signalHolds (e 3).toNat x (e 2) then 1 else 1 + (e 4).toNat)

def State.runWaitsig (s : State) (q : Nat) (e : Nat → Word) : State :=
  match s.cpWord (s.queueSpace q) (e 1) with
  | none => s.queueError q 2
  | some x => if signalHolds (e 3).toNat x (e 2) then s.consume q 1 else s.park q (.signal (e 1) (e 2) (e 3).toNat)

/-- Evaluate the waiting condition of a queue. -/
def State.reevaluate (s : State) (q : Nat) : State :=
  match (s.queue q).wait with
  | some (.signal a v c) => (match s.cpWord (s.queueSpace q) a with
    | none => s.queueError q 2
    | some x => if signalHolds c x v then s.consume q 1 else s)
  | _ => s

/-- SIGNAL: write or add at the signal word; then every waiting condition is evaluated again. -/
def State.runSignal (s : State) (q : Nat) (e : Nat → Word) : State :=
  match s.cpWord (s.queueSpace q) (e 1) with
  | none => s.queueError q 2
  | some x => match s.cpWrite (s.queueSpace q) (e 1) (leBytes 8 (if e 3 = 0 then e 2 else x + e 2).toNat) with
    | none => s.queueError q 2
    | some s =>
      let s := s.consume q 1
      (s.cp.queues.map (fun k => k.1)).foldl State.reevaluate s

def State.runWrite (s : State) (q : Nat) (e : Nat → Word) : State :=
  let bs := ([2, 3, 4, 5].flatMap (fun i => leBytes 8 (e i).toNat)).take (e 6).toNat
  match s.cpWrite (s.queueSpace q) (e 1) bs with
  | none => s.queueError q 2
  | some s => s.consume q 1

def State.runCopy (s : State) (q : Nat) (e : Nat → Word) : State :=
  match s.cpRead (s.queueSpace q) (e 2) (e 3).toNat with
  | none => s.queueError q 2
  | some bs => match s.cpWrite (s.queueSpace q) (e 1) bs with
    | none => s.queueError q 2
    | some s => s.consume q 1

def State.runFence (s : State) (q : Nat) (_ : Nat → Word) : State :=
  if (s.launchesOf q).isEmpty then s.consume q 1 else s.park q .fence

def State.runStepc (s : State) (q : Nat) (e : Nat → Word) : State :=
  let hit := fun (k : Gang) => k.queue == q && k.lrec.ltag == e 1 && k.state != .switchedOut
  ({ s with cp := { s.cp with gangs := s.cp.gangs.map (fun (x : Nat × Gang) => (x.1, if hit x.2 then { x.2 with srq := true } else x.2)) } }).consume q 1

def State.runTimewait (s : State) (q : Nat) (e : Nat → Word) : State :=
  if (e 1).toNat ≤ s.time.toNat then s.consume q 1 else s.park q (.time (e 1))

/-- LAUNCH (R462, R464). -/
def execLaunchPacket (s : State) : Host.Outcome State Fault Refusal := .next (s.turnPacket 1 State.runLaunch)
/-- LAUNCHI (R462). -/
def execLaunchiPacket (s : State) : Host.Outcome State Fault Refusal := .next (s.turnPacket 2 State.runLaunchi)
/-- LOOP (R462). -/
def execLoopPacket (s : State) : Host.Outcome State Fault Refusal := .next (s.turnPacket 3 State.runLoop)
/-- ENDLOOP (R462). -/
def execEndloopPacket (s : State) : Host.Outcome State Fault Refusal := .next (s.turnPacket 4 State.runEndloop)
/-- IF (R462). -/
def execIfPacket (s : State) : Host.Outcome State Fault Refusal := .next (s.turnPacket 5 State.runIf)
/-- WAITSIG (R462). -/
def execWaitsigPacket (s : State) : Host.Outcome State Fault Refusal := .next (s.turnPacket 6 State.runWaitsig)
/-- SIGNAL (R462). -/
def execSignalPacket (s : State) : Host.Outcome State Fault Refusal := .next (s.turnPacket 7 State.runSignal)
/-- WRITE (R462). -/
def execWritePacket (s : State) : Host.Outcome State Fault Refusal := .next (s.turnPacket 8 State.runWrite)
/-- COPY (R462). -/
def execCopyPacket (s : State) : Host.Outcome State Fault Refusal := .next (s.turnPacket 9 State.runCopy)
/-- FENCE (R462). -/
def execFencePacket (s : State) : Host.Outcome State Fault Refusal := .next (s.turnPacket 10 State.runFence)
/-- STEPC (R393, R462). -/
def execStepcPacket (s : State) : Host.Outcome State Fault Refusal := .next (s.turnPacket 11 State.runStepc)
/-- TIMEWAIT (R462). -/
def execTimewaitPacket (s : State) : Host.Outcome State Fault Refusal := .next (s.turnPacket 12 State.runTimewait)

/-- The head packet of a queue, whatever its type, as Helhal runs it (R471). -/
def State.runHead (s : State) (q : Nat) : State :=
  match s.headPacket q with
  | .empty => s
  | .unreadable => s.queueError q 2
  | .malformed => s.queueError q 1
  | .packet ws =>
    let e := fun (i : Nat) => ws.getD i 0
    match fld (e 0) 63 56 with
    | 1 => s.runLaunch q e
    | 2 => s.runLaunchi q e
    | 3 => s.runLoop q e
    | 4 => s.runEndloop q e
    | 5 => s.runIf q e
    | 6 => s.runWaitsig q e
    | 7 => s.runSignal q e
    | 8 => s.runWrite q e
    | 9 => s.runCopy q e
    | 10 => s.runFence q e
    | 11 => s.runStepc q e
    | _ => s.runTimewait q e

/-! ### The activity forecast and the scheduling pass (R317 to R322) -/

/-- Raise the estimate of the domains that a rectangle's tiles lie in. -/
def State.estimate (s : State) (t : Tbl (BitVec 8)) (r : LRec) : Tbl (BitVec 8) :=
  r.clusters.foldl (fun (t : Tbl (BitVec 8)) k =>
    let d := domainOf (s.pcnOf k)
    Tbl.put t d (BitVec.ofNat 8 (max (Tbl.get t d 0).toNat r.aest))) t

/-- The machine as the stride order would have it after so many more packets, with the queue depths and signals of now (R322). -/
def State.foresee : Nat → State → State
  | 0, s => s
  | n + 1, s => match s.cp.turn with
    | none => match s.join.choose with
      | none => s.join
      | some q => State.foresee n { s.join with cp := { s.join.cp with turn := some q } }
    | some q =>
      if s.frozen q then s
      else match s.headPacket q with
        | .empty => State.foresee n (s.endTurn q)
        | _ => State.foresee n (s.runHead q)

/-- Packets that the command processor takes to run within 5 µs, for the forecast alone: no rule says how long one takes (entry 33). -/
def forecastPackets : Nat := 64

/-- Write AFD, then AFH (R321, R322): the estimates of the running launches, and of every launch, of a LAUNCH or a LAUNCHI, that the
stride order would dispatch within the next 5 µs. -/
def State.forecast (s : State) : State :=
  let afd := (s.foresee forecastPackets).cp.gangs.foldl (fun (t : Tbl (BitVec 8)) (e : Nat × Gang) =>
    if e.2.state = .switchedOut then t else s.estimate t e.2.lrec) []
  let at_ := (s.time.toNat + 5000) / 1000 % 2 ^ 32
  { s with cp := { s.cp with afd := afd, afh := BitVec.ofNat 64 (at_ * 2 ^ 32 + (fld s.cp.afh 15 0 + 1) % 2 ^ 16) } }

/-- STRIDE_PASS (R317 to R322, R461, R467): the command processor chooses the queue whose turn runs, and writes the
forecast; in a turn, it takes a head that is no packet to run. -/
def execStridePass (s : State) : Host.Outcome State Fault Refusal :=
  .next (if !s.cpLive then s
  else match s.cp.turn with
  | some q =>
    if s.frozen q then s
    else match s.headPacket q with
      | .empty => s.endTurn q
      | .unreadable => s.queueError q 2
      | .malformed => s.queueError q 1
      | .packet _ => s
  | none =>
    let s := s.join.forecast
    { s with cp := match s.choose with
      | none => { s.cp with blocked := [] }
      | some q => { s.cp with turn := some q } })

/-! ### Waiting conditions (R462) -/

/-- CONDITION_REEVALUATION (R462): Helhal evaluates the waiting condition of queue `n` again. -/
def execConditionReevaluation (s : State) : Host.Outcome State Fault Refusal :=
  .next (if s.cpLive && !s.frozen s.arg.n && (s.queue s.arg.n).state == 1 then (s.reevaluate s.arg.n).join else s)

/-- TIMEWAIT_EXPIRY (R462): device time has reached the value that queue `n` waits for. -/
def execTimewaitExpiry (s : State) : Host.Outcome State Fault Refusal :=
  .next (match (s.queue s.arg.n).wait with
  | some (.time t) => if s.cpLive && !s.frozen s.arg.n && (s.queue s.arg.n).state == 1 && decide (t.toNat ≤ s.time.toNat) then (s.consume s.arg.n 1).join else s
  | _ => s)

/-! ### Queue descriptors (R466 to R469) -/

/-- DOORBELL (R466, R469): the host writes `w` to the doorbell of queue `n`. -/
def execDoorbell (s : State) : Host.Outcome State Fault Refusal :=
  let q := s.arg.n
  let k := s.queue q
  .next (if 1024 ≤ q ∨ k.state = 0 ∨ k.state = 3 then s
  else
    let t := s.arg.w.setWidth 32
    let s := s.leaveA.modQueue q fun k => { k with tail := t }
    if k.size < (t - k.head).toNat ∧ (t - k.head).toNat < 2 ^ 31 then s.queueError q 5 else s.join)

/-- Write the plain fields of a descriptor's second word. -/
def HostQ.fields (k : HostQ) (w : Word) : HostQ :=
  let k := { k with tkt := BitVec.ofNat 16 (fld w 63 48) }
  if k.state ≠ 0 then k
  else { k with lsz := BitVec.ofNat 4 (fld w 47 44), prt := BitVec.ofNat 4 (fld w 43 40), pasid := BitVec.ofNat 20 (fld w 19 0) }

/-- The host writes `w`, whose CMD is `cmd`, to the second word of descriptor `n`: the fields, then the command. -/
def State.queueCommand (s : State) (cmd : Nat) (f : State → Nat → State) : State :=
  if 1024 ≤ s.arg.n ∨ fld s.arg.w 39 36 ≠ cmd then s else f (s.leaveA.modQueue s.arg.n fun k => k.fields s.arg.w) s.arg.n

/-- A queue stops reading (R468): with `partly` a packet partly read is discarded. -/
def State.closeQueue (s : State) (q : Nat) (partly : Bool) : State :=
  let k := s.queue q
  if k.state = 0 then s
  else
    let live := !(s.launchesOf q).isEmpty
    ((s.modQueue q fun k =>
      { k with state := if live then 3 else 0, err := if partly then 3 else k.err, wait := none, joined := false, loops := [] }).endTurn q).unreserve q

/-- QUEUE_CREATE (R466, R467): CMD 1 on queue `n`. -/
def execQueueCreate (s : State) : Host.Outcome State Fault Refusal :=
  .next (s.queueCommand 1 fun s q => s.modQueue q fun k =>
    if k.state ≠ 0 then k
    else if 12 < k.lsz.toNat then { k with err := 6 }
    else { k with head := 0, tail := 0, err := 0, state := 1, loops := [], wait := none, joined := false })

/-- QUEUE_DESTROY (R468): CMD 2 on queue `n`; with `b` a packet was partly read. -/
def execQueueDestroy (s : State) : Host.Outcome State Fault Refusal := .next (s.queueCommand 2 fun s q => s.closeQueue q s.arg.b)

/-- The running launches of a queue are forced to brim (R468); while the command processor hangs, that is owed (R35). -/
def State.brimQueue (s : State) (q : Nat) : State :=
  if s.cp.hung then s.modQueue q fun k => { k with brim := true }
  else
    let live := (s.launchesOf q).filter (fun e => e.2.state != .switchedOut)
    live.foldl (fun s e => s.forceBrim e.1) (s.modQueue q fun k => { k with brim := false })

/-- QUEUE_DESTROY_AND_BRIM (R468): CMD 3 on queue `n`; its running launches are forced to brim. -/
def execQueueDestroyAndBrim (s : State) : Host.Outcome State Fault Refusal :=
  .next (s.queueCommand 3 fun s q => (s.closeQueue q s.arg.b).brimQueue q)

/-- QUEUE_CLEAR_ERROR (R467): CMD 4 on queue `n`, in the error state. -/
def execQueueClearError (s : State) : Host.Outcome State Fault Refusal :=
  .next (s.queueCommand 4 fun s q => s.modQueue q fun k =>
    if k.state ≠ 2 then k else { k with head := k.tail, state := 1, loops := [], wait := none, joined := false })

/-! ### Partitions (R498) -/

/-- May the descriptor be enabled: its sets in range, and disjoint from those of the others? -/
def State.partitionFits (s : State) (n : Nat) : Bool :=
  let p := s.partition n
  let apart := fun (a k b m : Nat) => k == 0 || m == 0 || decide (a + k ≤ b) || decide (b + m ≤ a)
  decide (p.pbas + p.pcnt ≤ 2 ^ 20) && decide (p.abas + p.acnt ≤ 4096) &&
    (List.range 16).all (fun m =>
      let o := s.partition m
      m == n || !o.en || (apart p.pbas p.pcnt o.pbas o.pcnt && apart p.abas p.acnt o.abas o.acnt && p.clm &&& o.clm == 0))

def State.modPartition (s : State) (n : Nat) (f : Partition → Partition) : State :=
  { s with cp := { s.cp with parts := Tbl.put s.cp.parts n (f (s.partition n)) } }

/-- PARTITION_ENABLE (R498): a write sets EN of descriptor `n`. -/
def execPartitionEnable (s : State) : Host.Outcome State Fault Refusal :=
  .next (if s.arg.n < 16 && !(s.partition s.arg.n).en && s.partitionFits s.arg.n then s.modPartition s.arg.n fun p => { p with en := true } else s)

/-- PARTITION_DISABLE (R498): a write clears EN of descriptor `n`. -/
def execPartitionDisable (s : State) : Host.Outcome State Fault Refusal :=
  let of_ := fun (q : Nat) => (s.queue q).prt.toNat == s.arg.n
  .next (if s.arg.n < 16 && !s.cp.queues.any (fun e => e.2.state != 0 && of_ e.1) && !s.cp.gangs.any (fun e => of_ e.2.queue) then
    s.modPartition s.arg.n fun p => { p with en := false }
  else s)

/-! ### Other management registers (R456) -/

/-- A write of `w` at a descriptor's word (R498), while EN is 0. -/
def Partition.write (p : Partition) (off : Nat) (w : Word) : Partition :=
  if p.en then p
  else if off = 8 then { p with pcnt := fld w 52 32, pbas := fld w 19 0 }
  else if off = 0x10 then { p with acnt := fld w 44 32, abas := fld w 11 0 }
  else if 0x40 ≤ off ∧ off < 0x130 then
    let lo := 8 * (off - 0x40)
    { p with clm := setFld p.clm (lo + 63) lo w.toNat }
  else p

/-- MANAGEMENT_REGISTER_WRITE (R456, R466, R498): the host writes `w` at the 8-aligned offset `n`. A write that sets or
clears EN, or whose CMD is 1 to 4, and a mailbox command are events of their own; other offsets ignore it. The spec gives a descriptor
write with CMD 5 to 15 no meaning: the model drops all of it, TKT included (DESIGN CHOICE, entry 67). With `j` the host does what the spec
names no offset for: 1 writes the module's own number `w` (R459, entry 60); 2 maps the addresses of `n` bytes from `w` to `x`, for ASID or,
with `b`, PASID `i`, and 3 unmaps what it had mapped among them (R232, entry 12). -/
def execManagementRegisterWrite (s : State) : Host.Outcome State Fault Refusal :=
  let a := s.arg.n
  let w := s.arg.w
  .next (if s.arg.j = 1 then s.modRim fun r => { r with moduleNo := w.setWidth 16 }
  else if s.arg.j = 2 ∨ s.arg.j = 3 then
    let m : CpMap := { sys := s.arg.b, id := s.arg.i, va := w.toNat, pa := s.arg.x.toNat, size := a }
    let rest := s.cp.maps.filter (fun o => o.sys != m.sys || o.id != m.id || o.va + o.size ≤ m.va || m.va + m.size ≤ o.va)
    { s with cp := { s.cp with maps := if s.arg.j = 2 then m :: rest else rest } }
  else if a % 8 ≠ 0 then s
  else if a = 0x30 then { s with mg := { s.mg with slkt := w } }
  else if a = 0x38 then { s with mg := { s.mg with domainNumber := w } }
  else if 0x4000 ≤ a ∧ a < 0x6000 then s.modPartition ((a - 0x4000) / 512) fun p => p.write (a % 512) w
  else if 0x10000 ≤ a ∧ a < 0x20000 then
    let q := (a - 0x10000) / 64
    if a % 64 = 0 then s.modQueue q fun k => if k.state = 0 then { k with ring := w } else k
    else if a % 64 = 8 ∧ fld w 39 36 = 0 then (s.leaveA.modQueue q fun k => k.fields w).join
    else s
  else if 0x20008 ≤ a ∧ a < 0x20100 then { s with mg := { s.mg with mailOps := Tbl.put s.mg.mailOps ((a - 0x20008) / 8) w } }
  else s)

end Sys2Proof.Machine
end

