-- ==== Sys2Proof/Machine/Manage.lean ====
section
/-! DEFINITION. The management plane: bring-up and readiness (R39, R40, R472), the clock's discipline (R390), the Crown and
the junctions (R36 to R38), the heartbeat and the recovery mailbox (R470, R471, R473), answers to page requests (R375) and
debug halts (R450). An event that is not due changes nothing. -/

namespace Sys2Proof.Machine

def State.modMg (s : State) (f : Mgmt → Mgmt) : State := { s with mg := f s.mg }

/-! ### Bring-up (R39, R40, R472) -/

/-- The number of a kind of image, under which the fuses hold its rollback counter. -/
def firmwareNo : Firmware → Nat
  | .helhal => 0 | .rv32e => 1 | .tsc => 2 | .optimiser => 3 | .milliner => 4 | .crown => 5 | .training => 6
/-- What the boot ROM refuses an image for (R472): 3 version below the rollback counter, 1 digest, 2 signature; 0 nothing. The order of the
checks is the model's (entry 13). -/
def Mgmt.fwCause (m : Mgmt) (c : FwImage) : Nat :=
  if c.version < Tbl.get m.rollback (firmwareNo c.kind) 0 then 3
  else if Config.shake256 c.bytes ≠ c.digest then 1
  else if Config.signatureOk m.keyDigest c.digest c.version c.sig then 0 else 2
/-- The boot ROM verifies images: those that pass stand in for earlier ones of their kind, the others are refused with their causes. -/
def Mgmt.verify (m : Mgmt) (l : List FwImage) : Mgmt :=
  let good := l.filter (fun c => m.fwCause c == 0)
  { m with
    fwLoaded := good ++ m.fwLoaded.filter (fun o => !good.any (fun c => c.kind == o.kind))
    fwRefused := m.fwRefused ++ (l.filter (fun c => m.fwCause c != 0)).map (fun c => (c.kind, m.fwCause c)) }
/-- The verified image of a kind. -/
def Mgmt.image (m : Mgmt) (k : Firmware) : Option FwImage := m.fwLoaded.find? (fun c => c.kind == k)

/-- MODULE_RESET (R39, R389, R472, R473): every register and memory of the module is at its reset value, and device time is
0; the boot ROM verifies the firmware (`fw`) and generates a new attestation key. Fuses, host memory, what the host has mapped and the
environment stay. -/
def execModuleReset (s : State) : Host.Outcome State Fault Refusal :=
  .next { State.reset with
    host := s.host, sched := s.sched, arg := s.arg, fresh := s.fresh, nextId := s.nextId, cp := { Cp.reset with maps := s.cp.maps }
    mg := { Mgmt.reset with
      keyDigest := s.mg.keyDigest, rollback := s.mg.rollback, identityKey := s.mg.identityKey, attestKey := s.mg.attestKey + 1 }.verify s.arg.fw }

/-- The images that a function runs or is trained by (R39, R472). -/
def needsOf : Fn → List Firmware
  | .field _ => [.tsc, .milliner]
  | .rim _ => [.optimiser, .training]
  | .hbm _ | .belvis _ | .cxla | .cxlb => [.training]
  | .crown => [.crown]
  | .cpx => [.helhal, .rv32e]

/-- The cores that start with a function: the TSCs of a field, the optimiser cores of a chiplet (R39). -/
def State.coresOf (s : State) (f : Fn) : List Nat :=
  match f with
  | .field n => ((List.range 1920).filter (fun k => fieldOf (s.pcnOf k) == n)).map (fun k => tscBase + k)
  | .rim n => (List.range 16).map (fun k => rimBase + 16 * n + k)
  | _ => []

/-- The bring-up of a function has ended: it is ready, or it never will be before module reset. -/
def Mgmt.ended (m : Mgmt) (f : Fn) : Bool :=
  m.isReady f || m.lost.contains f || (needsOf f).any (fun k => (m.image k).isNone) || m.testFailed.any (fun e => e.1 == f)

/-- The step of R39 in which a function comes up may run: the Crown and the command processor complex come first, and the Crown powers
the fields. -/
def Mgmt.mayComeUp (m : Mgmt) (f : Fn) : Bool :=
  match f with
  | .crown | .cpx => true
  | .field _ => m.isReady .crown && m.ended .cpx
  | _ => m.ended .crown && m.ended .cpx

/-- The image that the cores of a function start. -/
def Mgmt.bootImage (m : Mgmt) (f : Fn) : Mem :=
  Mem.cells 0 (((match f with | .field _ => m.image .tsc | .rim _ => m.image .optimiser | _ => none).map (fun (c : FwImage) => c.bytes)).getD [])

/-- FUNCTION_READY (R39, R40, R472): `fn` finishes its self-test or training and sets its ready bit, once; its cores start their verified
image (entry 13). Without a verified image of each kind that it needs it stays not ready. With `b` the self-test fails, and telemetry
records the cause `i`. -/
def execFunctionReady (s : State) : Host.Outcome State Fault Refusal :=
  let f := s.arg.fn
  .next (if s.mg.ended f || !s.mg.mayComeUp f then s
  else if s.arg.b then s.modMg fun m => { m with testFailed := m.testFailed ++ [(f, s.arg.i)] }
  else
    let fw := s.mg.bootImage f
    (s.coresOf f).foldl (fun s k => s.setTile k (bootTile k fw)) (s.modMg fun m => m.setReady f true))

/-- FUNCTION_LOST (R40, R444, R445): the whole of `fn` is lost and its ready bit clears. -/
def execFunctionLost (s : State) : Host.Outcome State Fault Refusal :=
  let f := s.arg.fn
  .next (if !s.mg.isReady f then s
  else match f with
    | .field n => ((List.range 4).foldl (fun s q => s.loseDomain (4 * n + q)) s).loseFn f
    | .rim n => s.loseChiplet n
    | _ => s.loseFn f)

/-! ### The device clock (R42, R390) -/

/-- The rate correction that the servo sets for a PTP time, within 100 ppm. -/
def State.disciplined (s : State) (ptp : Word) : State :=
  let off := ((ptp - s.clk.dofs) - s.time).toInt
  { s with clk := { s.clk with slew := max (-100) (min 100 (Config.servo off)) } }

/-- CLOCK_LOCK_GAINED (R40, R390): lock at PTP time `w`; DOFS is recorded at the first lock. -/
def execClockLockGained (s : State) : Host.Outcome State Fault Refusal :=
  .next (if s.mg.rdyc.getLsbD 4 then s
  else
    let s := if s.clk.dofsSet then s else { s with clk := { s.clk with dofs := s.arg.w - s.time, dofsSet := true } }
    (s.disciplined s.arg.w).modMg fun m => { m with rdyc := setFld m.rdyc 4 4 1 })

/-- CLOCK_LOCK_LOST (R40, R390): the clock holds its last rate correction. -/
def execClockLockLost (s : State) : Host.Outcome State Fault Refusal := .next (s.modMg fun m => { m with rdyc := setFld m.rdyc 4 4 0 })

/-- The port of the best master (R390): of the ready Belvis ports where one is announced, that of the least data set, ties to the lower
port. -/
def State.masterPort (s : State) : Option Nat :=
  ((List.range 16).filter (fun n => s.mg.isReady (.belvis n))).foldl (fun (best : Option Nat) n => match best, Tbl.look s.clk.announce n with
    | none, some _ => some n
    | some k, some a => (if a < Tbl.get s.clk.announce k 0 then some n else some k)
    | _, none => best) none

/-- PTP_MESSAGE (R390, R459): a message of domain `j` at Belvis port `n`. With `b` a master's announcement, whose data set ranks as `x`
does, or, with `i` not 0, its timeout; else PTP time `w`, which counts from the best master's port while the clock is locked. -/
def execPtpMessage (s : State) : Host.Outcome State Fault Refusal :=
  .next (if !(s.arg.n < 16 && s.mg.isReady (.belvis s.arg.n) && s.mg.domainNumber == BitVec.ofNat 64 s.arg.j) then s
  else if s.arg.b then
    { s with clk := { s.clk with announce := (if s.arg.i ≠ 0 then Tbl.drop s.clk.announce s.arg.n else Tbl.put s.clk.announce s.arg.n s.arg.x.toNat) } }
  else if s.masterPort = some s.arg.n ∧ s.mg.rdyc.getLsbD 4 then s.disciplined s.arg.w else s)

/-! ### Power and cooling (R36 to R38) -/

/-- The forecast table that the Crown works with (R321): the command processor's, where its SEQ has changed, else the one it took last; with
the device time in µs, modulo 2^32, for which it was made. -/
def State.crownForecast (s : State) : Tbl (BitVec 8) × Nat :=
  if s.cp.afh.setWidth 16 ≠ s.mg.afSeen then (s.cp.afd, fld s.cp.afh 63 32) else (s.mg.afTaken, s.mg.afAt)

/-- CROWN_BUDGET_DIVISION (R36 to R38): the wafer budget divided in proportion to the measured currents, the first 336 of
`nums`, before the junction temperatures, and the forecast. A domain over its grant, or hot, is paced to 1 to 15 sixteenths. A load step that the forecast in hand does not show by more than
25%, or for which none is written, is paced to 8/16. -/
def execCrownBudgetDivision (s : State) : Host.Outcome State Fault Refusal :=
  let m := s.mg
  let (table, at_) := s.crownForecast
  let behind := (s.time.toNat / 1000 + (2 ^ 32 - at_)) % 2 ^ 32
  let old := decide (0 < behind) && decide (behind < 2 ^ 31)
  let share := fun (d : Nat) => Config.forecastShare (Tbl.get table d 0).toNat
  let demand := fun (d : Nat) => s.arg.nums.getD d 0 + share d
  let sum := ((List.range 336).map demand).foldl (fun a b => a + b) 0
  let grant := fun (d : Nat) => m.budget * demand d / max sum 1
  let duty := fun (d : Nat) =>
    let c := s.arg.nums.getD d 0
    if Tbl.get m.currents d 0 < c ∧ (old ∨ 5 * share d < 4 * c) then 8
    else if grant d < demand d ∨ m.hot.contains d then 1 + Config.duty (grant d) (demand d) % 15 else 16
  .next (if !m.rdyc.getLsbD 3 then s
  else s.modMg fun m => { m with
    currents := (List.range 336).map (fun d => (d, s.arg.nums.getD d 0)), grants := (List.range 336).map (fun d => (d, grant d))
    duties := (List.range 336).map (fun d => (d, duty d)), junction := (List.range 336).map (fun d => (d, s.arg.nums.getD (336 + d) 0)), afSeen := s.cp.afh.setWidth 16, afAt := at_, afTaken := table })

/-- JUNCTION_THRESHOLD_105 (R38): the junction of domain `n` reaches 105 °C, or, with `b`, falls below it again. -/
def execJunctionThreshold105 (s : State) : Host.Outcome State Fault Refusal :=
  .next (s.modMg fun m => { m with hot := if s.arg.b then m.hot.filter (fun d => d != s.arg.n) else if m.hot.contains s.arg.n then m.hot else s.arg.n :: m.hot })

/-- JUNCTION_THRESHOLD_115 (R38, R444): domain `n` is switched off, which is its loss; the entries that take traffic around it come in
`nums`. -/
def execJunctionThreshold115 (s : State) : Host.Outcome State Fault Refusal := .next (s.loseDomain s.arg.n).goAround

/-- COOLANT_FLOW_ALARM (R38, R475): the wafer budget falls to 8 kW, and vector 1 is raised; `nums` are the measured flow and
temperatures. -/
def execCoolantFlowAlarm (s : State) : Host.Outcome State Fault Refusal :=
  .next (s.modMg fun m => { m with budget := 8000, alarm := true, msix := 1 :: m.msix, coolant := s.arg.nums })
/-- COOLANT_FLOW_RETURN (R38, R475): with the flow and temperatures measured then. -/
def execCoolantFlowReturn (s : State) : Host.Outcome State Fault Refusal :=
  .next (s.modMg fun m => { m with budget := 27000, alarm := false, coolant := s.arg.nums })

/-! ### The heartbeat and the mailbox (R470, R471, R473) -/

/-- HELHAL_HEARTBEAT (R470). -/
def execHelhalHeartbeat (s : State) : Host.Outcome State Fault Refusal := .next (if s.cp.hung then s else { s with cp := { s.cp with beat := true } })

/-- COMMAND_PROCESSOR_HUNG (R470): 10 ms end; without a heartbeat in them the command processor counts as hung, and vector 0
is raised. -/
def execCommandProcessorHung (s : State) : Host.Outcome State Fault Refusal :=
  .next (if s.cp.hung then s
  else if s.cp.beat then { s with cp := { s.cp with beat := false } }
  else { s with cp := { s.cp with hung := true } }.modMg fun m => { m with msix := 0 :: m.msix })

/-- A mailbox command is done: bit 63 of its word. -/
def State.mailed (s : State) (cmd : Nat) : State := s.modMg fun m => { m with mailCmd := BitVec.ofNat 64 (2 ^ 63 + cmd) }

/-- A queue descriptor as bytes (R466); its last 36 read zero. -/
def HostQ.bytes (k : HostQ) : List Byte :=
  leBytes 8 k.ring.toNat ++ leBytes 8 (k.tkt.toNat * 2 ^ 48 + k.lsz.toNat * 2 ^ 44 + k.prt.toNat * 2 ^ 40 + k.state * 2 ^ 32 + k.err * 2 ^ 24 + k.pasid.toNat) ++
    leBytes 4 k.head.toNat ++ leBytes 4 k.tail.toNat ++ List.replicate 40 0

/-- An operand word of a mailbox command, as the host wrote it (R471; which word is which operand is the model's, entry 34). -/
def State.mailOp (s : State) (i : Nat) : Word := Tbl.get s.mg.mailOps i 0
/-- What an entry of the launch table holds. -/
def Gang.numbers (g : Nat) (k : Gang) : List Nat :=
  let st := match k.state with | .placed => 0 | .running => 1 | .switching => 2 | .saveIncomplete => 3 | .switchedOut => 4
  [g, k.queue, st, k.lrec.gxo, k.lrec.gyo, k.lrec.gw, k.lrec.gh, k.b.toNat, k.d.toNat, k.gst.toNat, k.fatals, k.lrec.ltag.toNat, k.lrec.crec.toNat, k.lrec.csig.toNat,
    k.lrec.cval.toNat, k.lrec.savb.toNat]
/-- What a page request holds. -/
def PageReq.numbers (p : PageReq) : List Nat := [p.tag.toNat, p.cluster, p.pos, p.ctx, p.addr.toNat, p.kind, p.asid.toNat, p.gen.toNat]

/-- MAILBOX_READ (R471): the table of the first operand (0 launch table, 1 queue table, 2 page request queue) is copied into the window;
of the others the model gives each entry 64 bytes (entry 34). -/
def execMailboxRead (s : State) : Host.Outcome State Fault Refusal :=
  let form := fun (l : List (List Nat)) => l.flatMap (fun e => (List.range 64).map (Config.tableByte e))
  let img := match (s.mailOp 0).toNat with
    | 0 => form (s.cp.gangs.map (fun (e : Nat × Gang) => Gang.numbers e.1 e.2))
    | 1 => (List.range 1024).flatMap (fun q => (s.queue q).bytes)
    | _ => form (s.cp.pages.map PageReq.numbers)
  .next ((s.modMg fun m => { m with window := Mem.write m.window 0 img }).mailed 1)

/-- MAILBOX_STEP (R471): the next packet of the queue that the first operand names runs as Helhal would run it; a waiting one tests its
condition again. -/
def execMailboxStep (s : State) : Host.Outcome State Fault Refusal :=
  let q := (s.mailOp 0).toNat % 1024
  .next ((if s.frozen q || (s.queue q).tkt == 0 then s else s.runHead q).mailed 2)

/-- The answer `res` to the page request with a tag (R375): an ACC 3 request at the cluster's TSC; `none` where there is no
such request, or the TSC's queue is full. -/
def State.answerPage (s : State) (tag : BitVec 16) (res : Nat) : Option State :=
  match s.cp.pages.find? (fun p => p.tag == tag) with
  | none => none
  | some p =>
    let q := (s.cluster p.cluster).reqs
    match (List.range 64).find? (fun i => q.all (fun r => r.slot != i)) with
    | none => none
    | some i =>
      let r : TscReq := { slot := i, addr := p.addr, acc := 3, kind := p.kind, pos := p.pos, ctx := p.ctx, asid := p.asid, gen := p.gen, tag := p.tag, res := res % 4, taken := false }
      some ({ s with cp := { s.cp with pages := s.cp.pages.filter (fun x => x != p) } }.modCluster p.cluster fun c => { c with reqs := c.reqs ++ [r] })

/-- MAILBOX_ANSWER (R376, R471): the page request whose tag is the first operand is answered by the second. -/
def execMailboxAnswer (s : State) : Host.Outcome State Fault Refusal :=
  .next (((s.answerPage ((s.mailOp 0).setWidth 16) (s.mailOp 1).toNat).getD s).mailed 3)

/-- HOST_PAGE_ANSWER (R375): the command processor carries the host's answer `j` to the page request with tag `n`. -/
def execHostPageAnswer (s : State) : Host.Outcome State Fault Refusal :=
  .next (if s.cp.hung then s else (s.answerPage (BitVec.ofNat 16 s.arg.n) s.arg.j).getD s)

/-- The command processor answers again (R35): it takes the save reports that the tiles have held, and forces the brims that it owes. -/
def State.catchUp (s : State) : State :=
  let s := (s.cp.gangs.map (fun (e : Nat × Gang) => e.1)).foldl State.takeSaves s
  ((s.cp.queues.filter (fun (e : Nat × HostQ) => e.2.brim)).map (fun (e : Nat × HostQ) => e.1)).foldl State.brimQueue s

/-- MAILBOX_RESTART (R471, R472): Helhal, an image of `fw`, is verified and reloaded; a refused one runs nothing. It rebuilds its state, the event ring drains into completion
records, and what waited for it is taken up. -/
def execMailboxRestart (s : State) : Host.Outcome State Fault Refusal :=
  let ok := s.arg.fw.any (fun c => c.kind == .helhal && s.mg.fwCause c == 0)
  let s := s.modMg fun m => m.verify s.arg.fw
  .next (if !ok then s.mailed 4
  else
    let s := (s.mg.events.foldl State.settle s).modMg fun m => { m with events := [] }
    ({ s with cp := { s.cp with hung := false, beat := true, turn := none, blocked := [], reserved := [] } }).catchUp.mailed 4)

/-- ATTEST (R473): the certificate chain and the measurements, signed over them and the nonce of the first four operands, stand in the
window. -/
def execAttest (s : State) : Host.Outcome State Fault Refusal :=
  let nonce := BitVec.ofNat 256 (leNat ((List.range 4).flatMap (fun i => leBytes 8 (s.mailOp i).toNat)))
  let m := s.mg
  let bs := Config.attestation m.identityKey m.attestKey nonce (m.fwLoaded.map (fun c => c.digest)) (m.keyDigest, m.rollback) m.rdyc
  .next ((s.modMg fun m => { m with window := Mem.write m.window 0 (bs.take 0x100000) }).mailed 5)

/-! ### What the host reads (R456) -/

/-- A word of a partition descriptor (R498). -/
def Partition.word (p : Partition) (off : Nat) : Word :=
  if off = 0 then BitVec.ofNat 64 (2 ^ 63 * p.en.toNat)
  else if off = 8 then BitVec.ofNat 64 (p.pcnt * 2 ^ 32 + p.pbas)
  else if off = 0x10 then BitVec.ofNat 64 (p.acnt * 2 ^ 32 + p.abas)
  else if 0x40 ≤ off ∧ off < 0x130 then p.clm.extractLsb' (8 * (off - 0x40)) 64
  else 0

/-- The telemetry word of a UCIe module (R486). -/
def Uci.word (u : Uci) : Word := BitVec.ofNat 64 (u.lanes * 2 ^ 56 + u.half * 2 ^ 54 + u.rpl.toNat * 2 ^ 24 + u.crc.toNat)

/-- What a telemetry word reports (R475): of a domain, current, junction temperature and duty; or corrected errors, repairs, twins, free
sites and spare clusters; or late sweeps, refused firmware and failed self-tests, coolant flow and temperatures. -/
def State.telemetry (s : State) (a : Nat) : List Nat :=
  let m := s.mg
  let d := (a - 0x30000) / 8
  if a < 0x31000 then [Tbl.get m.currents d 0, Tbl.get m.junction d 0, Tbl.get m.duties d 16]
  else if a < 0x33000 then
    [m.softErrors, m.repaired] ++ m.twins.flatMap (fun e => [e.1, e.2]) ++ m.badSites.flatMap (fun e => e.1 :: e.2) ++ m.spareUsed ++
      m.retests.flatMap (fun e => [e.1, e.2.1, e.2.2.toNat])
  else if a < 0x34000 then m.sweepLates ++ m.fwRefused.flatMap (fun e => [firmwareNo e.1, e.2]) ++ m.testFailed.map (fun e => e.2) ++ m.coolant
  else []

/-- What a host read of the 8-aligned offset `a` of BAR 0 answers (R456); it changes nothing. A write-only CMD reads zero. R475 says
what the words of the domains, and those from 0x32000 on, report, and gives them no form. -/
def State.registerRead (s : State) (a : Nat) : Word :=
  let m := s.mg
  if a = 0 then m.rdyfa
  else if a = 8 then m.rdyfb
  else if a = 0x10 then m.rdym
  else if a = 0x18 then m.rdyc
  else if a = 0x20 then s.clk.dofs
  else if a = 0x28 then m.mgen.setWidth 64
  else if a = 0x30 then m.slkt
  else if a = 0x38 then m.domainNumber
  else if 0x4000 ≤ a ∧ a < 0x6000 then (s.partition ((a - 0x4000) / 512)).word (a % 512)
  else if 0x10000 ≤ a ∧ a < 0x20000 then BitVec.ofNat 64 (leNat (((s.queue ((a - 0x10000) / 64)).bytes.drop (a % 64)).take 8))
  else if a = 0x20000 then m.mailCmd
  else if 0x20008 ≤ a ∧ a < 0x20100 then Tbl.get m.mailOps ((a - 0x20008) / 8) 0
  else if 0x31000 ≤ a ∧ a < 0x31900 then (s.uci ((a - 0x31000) / 8)).word
  else if (0x30000 ≤ a ∧ a < 0x30A80) ∨ (0x32000 ≤ a ∧ a < 0x40000) then Config.telemetry a (s.telemetry a)
  else if 0x100000 ≤ a ∧ a < 0x200000 then BitVec.ofNat 64 (leNat (Mem.bytes m.window (a - 0x100000) 8))
  else 0

/-! ### Debug halts (R450) -/

/-- Tiles stop and go on as the halts say; at a tile that stops, a diversion that is due comes first (R148), and one in a checkpoint
boundary stops when it has ended (R424). Queues that the halts freeze leave A, and join again when they go on. -/
def State.applyHalts (s : State) : State :=
  let s := ((s.tiles.map (fun (e : Nat × Tile) => e.1)).filter s.haltDue).foldl State.haltTile s
  { s with tiles := s.tiles.map (fun (e : Nat × Tile) => (e.1, if isTile e.1 then e.2.modVol fun v => { v with halted := v.halted && e.2.underHalt s.mg.halts } else e.2)) }.join

/-- DEBUG_HALT_REQUEST (R75, R450): partition `n`, or with 16 the whole wafer, is halted. -/
def execDebugHaltRequest (s : State) : Host.Outcome State Fault Refusal :=
  .next (if 16 < s.arg.n ∨ s.mg.halts.contains s.arg.n then s else (s.modMg fun m => { m with halts := s.arg.n :: m.halts }).applyHalts)

/-- DEBUG_HALT_RELEASE (R75, R450). -/
def execDebugHaltRelease (s : State) : Host.Outcome State Fault Refusal :=
  .next ((s.modMg fun m => { m with halts := m.halts.filter (fun h => h != s.arg.n) }).applyHalts)

end Sys2Proof.Machine
end

