-- ==== Sys2Proof/Machine/Replay.lean ====
section
/-! DEFINITION. Replay of the arrival log on a restored tile (R440), and the debugger's writes (R451). -/

namespace Sys2Proof.Machine

/-! ### Debugger writes (R451) -/

/-- A register that SETS cannot write, written by the debugger; reserved numbers and reserved fields change nothing (R7). -/
def LaunchRegs.poke (r : LaunchRegs) (n : Nat) (v : Word) : LaunchRegs :=
  match n with
  | 0x002 => { r with tid := v.setWidth 16 }
  | 0x003 => { r with rank := fld v 15 0 }
  | 0x004 => { r with gxo := fld v 7 0 }
  | 0x005 => { r with gyo := fld v 7 0 }
  | 0x006 => { r with gw := fld v 7 0 }
  | 0x007 => { r with gh := fld v 7 0 }
  | 0x008 => { r with pres := BitVec.ofNat 8 (fld v 7 0), bw := BitVec.ofNat 8 (fld v 15 8), bh := BitVec.ofNat 8 (fld v 23 16) }
  | 0x009 => { r with part := v &&& 0xFF00FF }
  | 0x00A => { r with ord := v.getLsbD 0 }
  | 0x010 => { r with dln := v }
  | 0x011 => { r with brt := v }
  | 0x012 => { r with vwd := v }
  | 0x013 => { r with steps := v }
  | 0x014 => { r with lscl := v.setWidth 32 }
  | _ => r

/-- A stream register without its reserved fields (R7, R140). -/
def strFields (v : BitVec 128) : BitVec 128 := v &&& 0xFF000000FFFFFFFFFFFFFFFF001FFFFF

/-- What a debugger write names: its tile, and the number by which a DBG record names the place (entry 21): the kind in [63:56], then the
tile, then the context and register, the system register or the pool offset. -/
def dbgPlace : DbgWrite → Nat × Nat
  | .greg t c r _ => (t, 2 ^ 56 * 1 + 2 ^ 32 * t + 64 * c + r.toNat)
  | .preg t c r _ => (t, 2 ^ 56 * 2 + 2 ^ 32 * t + 8 * c + r.toNat)
  | .sreg t c r _ => (t, 2 ^ 56 * 3 + 2 ^ 32 * t + 8 * c + r.toNat)
  | .sys t c n _ => (t, 2 ^ 56 * 4 + 2 ^ 32 * t + 1024 * c + n)
  | .pc t c _ => (t, 2 ^ 56 * 5 + 2 ^ 32 * t + c)
  | .acc t k _ => (t, 2 ^ 56 * 6 + 2 ^ 32 * t + k)
  | .pool t off _ => (t, 2 ^ 32 * t + off)
/-- The bytes that it writes. -/
def dbgData : DbgWrite → List Byte
  | .greg _ _ _ v | .sys _ _ _ v | .pc _ _ v => leBytes 8 v.toNat
  | .preg _ _ _ v => leBytes 4 v.toNat
  | .sreg _ _ _ v => leBytes 16 v.toNat
  | .acc _ _ v => [v]
  | .pool _ _ bs => bs

/-- The effect of a debugger write. Code below XB does not change (R231, R245): a write that names it there is ignored. -/
def State.poke (s : State) : DbgWrite → State
  | .greg t c r v => s.modTile t fun x => x.modCtx c fun k => k.wg r v
  | .preg t c r v => s.modTile t fun x => x.modCtx c fun k => k.wp r v
  | .sreg t c r v => s.modTile t fun x => x.modCtx c fun k => k.ws r (strFields v)
  | .pc t c v => s.modTile t fun x => x.modCtx c fun k => { k with pc := v }
  | .acc t k v => s.modTile t fun x => x.modArr fun a => a.setAcc (k % 8) fun _ =>
      { vld := v.getLsbD 7, drt := v.getLsbD 6, ifl := v.getLsbD 5, own := BitVec.ofNat 3 (fld v 2 0) }
  | .pool t off bs => s.modTile t fun x => if off < x.blk.lr.xb.toNat then x else x.poolWrite off bs
  | .sys t c n v =>
    let h := (s.tile t).blk.hold
    let cur := s.cur
    let s' := { s with cur := t }.modTile t fun x => { x with blk := { x.blk with hold := c % 8 } }
    let s' := match s'.sysWrite n v with
      | some s' => s'
      | none => s'.modTile t fun x => (x.modLr fun r => r.poke n v).modVol fun o => if n = 0x015 then { o with mapg := v.setWidth 32 } else o
    { s' with cur := cur }.modTile t fun x => { x with blk := { x.blk with hold := h } }

/-! ### Records applied (R440) -/

/-- What applying a record comes to: done; held until the live event has happened, in the state given; or it does not fit the
state. -/
inductive Applied where
  | done (s : State)
  | hold (s : State)
  | diverges

/-- Apply the packet of a record as if it arrived now; whatever it would answer or report is discarded. One that the core does not take does
not fit its state. -/
def State.applyLive (s : State) (core : Nat) (p : Pkt) (b : Bool) (ev : State → Host.Outcome State Fault Refusal) : Applied :=
  let rs := (s.tile core).vol.replay
  let f := s.fen core
  let s1 := (({ s with net := [{ p with stage := .arrived }], arg := { s.arg with n := core, i := p.id, j := 0, b := b } }.modTile core fun t =>
    t.modVol fun v => { v with replay := none }).modFen core fun f => { f with unprotected := true })
  match ev s1 with
  | .next s2 =>
    if (s2.pkt? p.id).isSome then .diverges
    else .done (({ s2 with net := s.net, arg := s.arg, cp := { s2.cp with reports := s.cp.reports } }.modTile core fun t =>
      t.modVol fun v => { v with replay := rs }).modFen core fun _ => f)
  | _ => .diverges

/-- The answer to the request of a copy's line is taken again (R335); a line whose destination's translation is missing holds. -/
def State.reanswer (s : State) (core : Nat) (p : Pkt) (a : Reply) (q : Req) : Applied :=
  let t := s.lineAnswer core p a q
  if (t.tile core).blk.ni.reqs.any (fun k => k.id == q.id) then .hold t else .done t

/-- What a re-log record puts back (R314). -/
def Body.kept : Body → Spill
  | .msg m => .msg m
  | .notice n => .notice n
  | b => .pkt (keptPkt 0 .cpx 0 0 b)

/-- The bytes of a stable page as a replayed tile reads them (R239): what device memory holds, or unspecified bytes where the page has
changed since the launch was dispatched. -/
def State.stableBytes (s : State) (core k a z : Nat) : List Byte :=
  match (s.tile core).blk.lr.gang.bind s.gang?, Tbl.look s.devAt (a / 0x10000) with
  | some g, some w =>
    if g.began ≤ w then (List.range z).map (fun i => Config.freeByte s.fresh (a + i)) else Mem.bytes (s.devView core k) a z
  | _, _ => Mem.bytes (s.devView core k) a z

/-- A reply as the log keeps it, with the bytes of stable pages read again (R239, R440). -/
def State.wholeReply (s : State) (core : Nat) (q : Req) (a : Reply) : Reply :=
  match q.op, q.owner with
  | .read els z, .slice k => { a with data := a.data ++ (els.filter (fun e => q.stable.contains e.1)).flatMap (fun e => bytesAt e.2 (s.stableBytes core k e.1 z)) }
  | _, _ => a

/-- A record with a packet. -/
def State.applyPkt (s : State) (core : Nat) (r : LogRec) (p : Pkt) : Applied :=
  if r.kind = .msg ∧ r.aux = 1 then .done (s.modTile core fun t => t.requeue p.body.kept)
  else match p.body with
  | .msg m => s.applyLive core p false (if m.spawn then (fun s => .next s.spawnArrives) else execMessageAdmission)
  | .notice _ => s.applyLive core p false execPageAnswerNotice
  | .req _ | .xwrite .. => s.applyLive core p false execRemotePoolAccess
  | .reply a => (match s.reqOf core p.src a with
    | none => if a.refused.isSome then s.applyLive core p false execRefusalReceipt else .diverges
    | some q =>
      if q.line.isSome then s.reanswer core p a q
      else s.applyLive core { p with body := .reply (s.wholeReply core q a) } true (match r.kind with
        | .tok => execHeronScan
        | .ack => if a.refused.isSome then execRefusalReceipt else execJournalAcknowledgement
        | _ => execResultLanding))
  | .ack _ _ no => s.applyLive core p false (if no then execRefusalReceipt else execMessageAcknowledgement)
  | .popAck _ => s.applyLive core p false execPopAcknowledgement
  | .optDone .. => s.applyLive core p false execOptimiserCompletionNotice
  | .sys _ => s.applyLive core p false execForcedBrimWrite
  | .close _ => s.applyLive core p false execMessageAdmission
  | .log _ | .stage | .causeway => .done s

/-- Land a value that a record holds in the outstanding result that a test names. -/
def State.landRec (s : State) (core c : Nat) (p : Outs → Bool) (w : Word) : Applied :=
  match ((s.tile core).ctx c).outs.find? p with
  | none => .diverges
  | some o => .done ((s.modOuts core c o.id fun o => { o with need := 0, how := .fixed (o.gs.map (fun g => (g, w))) none }).landIf core c o.id)

/-- A load of a stable page is read again (R239), for a register or for a copy's line. -/
def State.reread (s : State) (core : Nat) (r : LogRec) : Applied :=
  match (s.tile core).blk.ni.reqs.find? (fun q => ownerCode q.owner == r.src && q.seq == r.seq) with
  | none => .diverges
  | some q => match q.op, q.owner with
    | .read els _, .slice _ =>
      let a := s.wholeReply core { q with stable := els.map (fun e => e.1) } (q.reply {} none)
      if q.line.isSome then s.reanswer core { keptPkt core q.owner 6 q.seq (.reply a) with id := s.nextId } a q
      else (match q.out with
        | some id => .done (((s.dropReq core q.id).modOuts core q.ctx id (fun o => o.part a)).landIf core q.ctx id)
        | none => .diverges)
    | _, _ => .diverges

/-- A line of a copy moves again that no packet brought: within the own pool, as recorded; or on its way to or from an owner or a
window. It holds while its translation, a lock before it, or what a release waits for, is to come. -/
def State.reline (s : State) (core : Nat) (r : LogRec) : Applied :=
  match r.line.bind (s.copyOf core) with
  | none => .diverges
  | some c =>
    if c.st ≠ 0 ∨ c.stage ≠ .idle ∨ c.total ≤ c.lines then .diverges
    else if !s.copyReady core c then .hold s
    else if r.kind = .cpd ∧ r.aux ≠ cpdPast then .done ((s.modTile core fun t => t.poolWrite (32 * r.aux) r.data).modCopy core c.idx CopyOp.next)
    else match s.lineSend core c with
      | .moved t _ => .done t
      | .waits t => .hold t
      | .fails _ => .diverges

/-- A token lands again (R264), with the bytes that its status leaves unspecified. -/
def State.retoken (s : State) (core : Nat) (r : LogRec) : Applied :=
  let w := BitVec.ofNat 64 (leNat r.data)
  if r.aux < 16 then match s.copyOf core r.aux with
    | none => .diverges
    | some c => .done ((if fld w 62 48 = 0 then s else s.spoil core c).endCopy core c w)
  else match (s.tile core).blk.en.queries.find? (fun q => q.idx == r.aux - 16) with
    | none => .diverges
    | some q => .done (s.endQuery core q w)

/-- The boundary at a CUT record (R440): the tile's pool and block become the checkpoint of the interval that follows, whose re-log
records bring back what waits. The boundary after an exchange that is run again waits for it (R443). -/
def State.recut (s : State) (core : Nat) : Applied :=
  if s.drained core && !((s.cluster (clusterOf core)).pre && (s.tile core).blk.arr.mx.isSome) then
    let t := ((s.tile core).copied.unqueued.tally 0x0D (s.tile core).blk.hold 1).modVol fun v => { v with owed := false }
    .done ((s.setTile core t).modFen core fun f => { f with image := t.pool, block := t.blk, oldLog := [] })
  else .hold s

/-- What the array or an exchange gave up without a packet (R210, R221). -/
def State.regive (s : State) (core : Nat) (r : LogRec) : Applied :=
  let t := s.tile core
  if r.aux = ackCancel then (if t.blk.arr.mx.isSome then .done (s.cancelEntry core) else .diverges)
  else match t.blk.arr.queue.find? (fun e => e.seq.toNat + ackAbandon == r.aux && e.count.toNat == r.src) with
    | none => .diverges
    | some e => if t.nextCmd.any (fun k => k.seq == e.seq) then .done (s.abandon core e) else .hold s

/-- An event without data happens again (R438 RSU, entry 21). -/
def State.reready (s : State) (core : Nat) (r : LogRec) : Applied :=
  let t := s.tile core
  if r.aux = rsuNotice then (if t.vol.notices.isEmpty then .diverges else .done (s.takeNotice core))
  else if r.aux = rsuTask then (if t.nextSpawn.isNone then .diverges else if (s.freeCtx core).isNone then .hold s else .done (s.takeTask core))
  else if r.aux = rsuLand then (match (t.ctx r.ctx).outs[r.seq]? with
    | some o => if o.need ≠ 0 then .done s else if s.landsNow core o then .done (s.land core r.ctx o) else .hold s
    | none => .done s)
  else if r.aux = rsuBrim then .done (if t.blk.lr.brimFired then s else s.fireBrim core)
  else if r.aux = rsuLine then s.reline core r
  else if r.aux = rsuIdle then (match t.blk.ni.send.find? (fun e => e.peer == r.src && e.cls == r.cls) with
    | none => .diverges
    | some e => .done (s.closeChan core e))
  else if r.aux = rsuQuery then (match t.blk.en.queries.find? (fun q => q.idx == r.seq && !q.pages.isEmpty) with
    | none => .diverges
    | some q => if t.queryTurn q then (match s.startQuery core q with | some t => .done t | none => .diverges) else .hold s)
  else match (t.ctx r.ctx).run with
    | .waiting (.rtx _) => .done (s.modTile core fun t => t.modCtx r.ctx fun c => { c with run := .ready })
    | .waiting (.park _ _) => .done (s.modTile core fun t => t.modCtx r.ctx Ctx.unpark)
    | .waiting (.xlate k) => if s.waitOver core r.ctx (.xlate k) then .done s else .hold s
    | _ => .done s

/-- Apply one record. -/
def State.applyRec (s : State) (core : Nat) (r : LogRec) : Applied :=
  match r.pkt with
  | some p => s.applyPkt core r p
  | none => match r.kind with
    | .rsp => s.landRec core r.ctx (fun o => o.kind == .other && o.gs.map (fun g => g.toNat) == [r.aux]) (BitVec.ofNat 64 (leNat r.data))
    | .spr => s.reread core r
    | .cpd => s.reline core r
    | .tok => s.retoken core r
    | .ack => s.regive core r
    | .bar => if r.aux < 16 then
        .done (s.modTile core fun t => t.complete r.aux
          (if r.data.isEmpty then none else some (BitVec.ofNat 64 (leNat (r.data.take 8)), BitVec.ofNat 32 (leNat (r.data.drop 8)))))
      else s.landRec core r.ctx (fun o => o.how == .probe (r.aux - 16)) (BitVec.ofNat 64 (leNat r.data))
    | .rsu => s.reready core r
    | .dvt => .done ((if (s.tile core).blk.lr.brimFired then s else s.fireBrim core).divertCtx core r.ctx (leNat r.data))
    | .cut => s.recut core
    | .dbg => match r.dbg with | some w => .done (s.poke w) | none => .diverges
    | .msg | .atm | .wrt | .rdv => .diverges

/-- The first record that is no reading, and the records without it. -/
def nextRec : List LogRec → Option (LogRec × List LogRec)
  | [] => none
  | r :: rs => if r.kind = .rdv then (nextRec rs).map (fun e => (e.1, r :: e.2)) else some (r, rs)

/-- What a replaying tile does before its next unit (R440): `none` when it may issue the unit; else the state after the
record at the current count, or a double fault where the log does not fit. -/
def State.replayStep (s : State) (core : Nat) (rs : List LogRec) : Option State :=
  let n : BitVec 40 := (s.tile core).blk.ct.ucnt.setWidth 40
  let bad := match (s.tile core).blk.lr.gang with | some g => some (s.doubleFault g) | none => some s
  if rs.any (fun r => r.ucnt.toNat < n.toNat) then bad
  else match nextRec rs with
  | none => if rs.isEmpty then some s else none
  | some (r, rest) =>
    if r.ucnt ≠ n then none
    else match s.applyRec core r with
    | .done s' => some (s'.modTile core fun t => (t.modVol fun v => { v with replay := some rest }).tally 0x0E r.ctx 1)
    | .hold s' => some s'
    | .diverges => bad

/-- DEBUGGER_WRITE (R451): a write of the debugger to a halted tile, logged with its address and data (R438). -/
def execDebuggerWrite (s : State) : Host.Outcome State Fault Refusal :=
  .next (match s.arg.dbg with
  | none => s
  | some w =>
    let (core, addr) := dbgPlace w
    if !(s.tile core).vol.halted || (s.tile core).vol.failed then s
    else (s.addRecord core { s.record core .dbg 0 false (leBytes 8 addr ++ dbgData w) none with aux := addr % 2 ^ 16, dbg := some w }).poke w)

end Sys2Proof.Machine
end

