-- ==== Sys2Proof/Machine/Scalar.lean ====
section
/-! DEFINITION. Page 0: instructions on general registers (R151 to R162). -/

namespace Sys2Proof.Machine

/-! ### Results (R156 to R158) -/

def opMulh (x y : Word) : Word := BitVec.ofInt 64 (Int.fdiv (x.toInt * y.toInt) (2 ^ 64))
def opMulhu (x y : Word) : Word := BitVec.ofNat 64 (x.toNat * y.toNat / 2 ^ 64)
/-- Scalar.Divide (R157). -/
def opDiv (x y : Word) : Word := if y = 0 then -1 else BitVec.ofInt 64 (Int.tdiv x.toInt y.toInt)
def opRem (x y : Word) : Word := if y = 0 then x else BitVec.ofInt 64 (Int.tmod x.toInt y.toInt)
def opDivu (x y : Word) : Word := if y = 0 then -1 else BitVec.ofNat 64 (x.toNat / y.toNat)
def opRemu (x y : Word) : Word := if y = 0 then x else BitVec.ofNat 64 (x.toNat % y.toNat)
/-- Shifts take y[5:0] (R156). -/
def opShl (x y : Word) : Word := x <<< (y.toNat % 64)
def opShr (x y : Word) : Word := x >>> (y.toNat % 64)
def opSar (x y : Word) : Word := BitVec.sshiftRight x (y.toNat % 64)
def opRol (x y : Word) : Word := BitVec.rotateLeft x (y.toNat % 64)
def opMin (x y : Word) : Word := if BitVec.slt y x then y else x
def opMax (x y : Word) : Word := if BitVec.slt x y then y else x
def opMinu (x y : Word) : Word := if BitVec.ult y x then y else x
def opMaxu (x y : Word) : Word := if BitVec.ult x y then y else x
/-- CLZ, CTZ, POPC (R158). -/
def opClz (x : Word) : Word := BitVec.ofNat 64 (((List.range 64).find? (fun i => x.getLsbD (63 - i))).getD 64)
def opCtz (x : Word) : Word := BitVec.ofNat 64 (((List.range 64).find? (fun i => x.getLsbD i)).getD 64)
def opPopc (x : Word) : Word := BitVec.ofNat 64 (((List.range 64).filter (fun i => x.getLsbD i)).length)

/-! ### Shared forms -/

/-- A two-operand unit with register y (A2, R156). -/
def alu (f : Word → Word → Word) (u : VUnit) (s : State) : Host.Outcome State Fault Refusal :=
  issue u (regs2 u) [] (fun s => .done (s.setG u.a (f (s.x2 u) (s.y2 u)))) s

/-- A two-operand unit with an immediate y (A2I, R156). -/
def aluImm (f : Word → Word → Word) (u : VUnit) (s : State) : Host.Outcome State Fault Refusal :=
  issue u (regs2i u) [] (fun s => .done (s.setG u.a (f (s.x2i u) u.ik))) s

/-- A unary unit (A1). -/
def unary (f : Word → Word) (u : VUnit) (s : State) : Host.Outcome State Fault Refusal :=
  issue u [u.a, u.b] [] (fun s => .done (s.setG u.a (f (s.g u.b)))) s

/-! ### Meanings -/

/-- NOP (R155). -/
def execNop (u : VUnit) (s : State) : Host.Outcome State Fault Refusal := issue u [] [] (fun s => .done s) s
/-- MOV (R155). -/
def execMov (u : VUnit) (s : State) : Host.Outcome State Fault Refusal := unary (fun x => x) u s
/-- LDI (R155). -/
def execLdi (u : VUnit) (s : State) : Host.Outcome State Fault Refusal :=
  issue u [u.a] [] (fun s => .done (s.setG u.a u.ik)) s
/-- ADD with register y (R156). -/
def execAdd (u : VUnit) (s : State) : Host.Outcome State Fault Refusal := alu (fun x y => x + y) u s
/-- ADD with an immediate (R156). -/
def execAddImm (u : VUnit) (s : State) : Host.Outcome State Fault Refusal := aluImm (fun x y => x + y) u s
/-- SUB with register y (R156). -/
def execSub (u : VUnit) (s : State) : Host.Outcome State Fault Refusal := alu (fun x y => x - y) u s
/-- SUB with an immediate (R156). -/
def execSubImm (u : VUnit) (s : State) : Host.Outcome State Fault Refusal := aluImm (fun x y => x - y) u s
/-- MUL with register y (R156). -/
def execMul (u : VUnit) (s : State) : Host.Outcome State Fault Refusal := alu (fun x y => x * y) u s
/-- MUL with an immediate (R156). -/
def execMulImm (u : VUnit) (s : State) : Host.Outcome State Fault Refusal := aluImm (fun x y => x * y) u s
/-- MULH with register y (R156). -/
def execMulh (u : VUnit) (s : State) : Host.Outcome State Fault Refusal := alu (fun x y => opMulh x y) u s
/-- MULH with an immediate (R156). -/
def execMulhImm (u : VUnit) (s : State) : Host.Outcome State Fault Refusal := aluImm (fun x y => opMulh x y) u s
/-- MULHU with register y (R156). -/
def execMulhu (u : VUnit) (s : State) : Host.Outcome State Fault Refusal := alu (fun x y => opMulhu x y) u s
/-- MULHU with an immediate (R156). -/
def execMulhuImm (u : VUnit) (s : State) : Host.Outcome State Fault Refusal := aluImm (fun x y => opMulhu x y) u s
/-- DIV with register y (R157). -/
def execDiv (u : VUnit) (s : State) : Host.Outcome State Fault Refusal := alu (fun x y => opDiv x y) u s
/-- DIV with an immediate (R157). -/
def execDivImm (u : VUnit) (s : State) : Host.Outcome State Fault Refusal := aluImm (fun x y => opDiv x y) u s
/-- DIVU with register y (R157). -/
def execDivu (u : VUnit) (s : State) : Host.Outcome State Fault Refusal := alu (fun x y => opDivu x y) u s
/-- DIVU with an immediate (R157). -/
def execDivuImm (u : VUnit) (s : State) : Host.Outcome State Fault Refusal := aluImm (fun x y => opDivu x y) u s
/-- REM with register y (R157). -/
def execRem (u : VUnit) (s : State) : Host.Outcome State Fault Refusal := alu (fun x y => opRem x y) u s
/-- REM with an immediate (R157). -/
def execRemImm (u : VUnit) (s : State) : Host.Outcome State Fault Refusal := aluImm (fun x y => opRem x y) u s
/-- REMU with register y (R157). -/
def execRemu (u : VUnit) (s : State) : Host.Outcome State Fault Refusal := alu (fun x y => opRemu x y) u s
/-- REMU with an immediate (R157). -/
def execRemuImm (u : VUnit) (s : State) : Host.Outcome State Fault Refusal := aluImm (fun x y => opRemu x y) u s
/-- AND with register y (R156). -/
def execAnd (u : VUnit) (s : State) : Host.Outcome State Fault Refusal := alu (fun x y => x &&& y) u s
/-- AND with an immediate (R156). -/
def execAndImm (u : VUnit) (s : State) : Host.Outcome State Fault Refusal := aluImm (fun x y => x &&& y) u s
/-- OR with register y (R156). -/
def execOr (u : VUnit) (s : State) : Host.Outcome State Fault Refusal := alu (fun x y => x ||| y) u s
/-- OR with an immediate (R156). -/
def execOrImm (u : VUnit) (s : State) : Host.Outcome State Fault Refusal := aluImm (fun x y => x ||| y) u s
/-- XOR with register y (R156). -/
def execXor (u : VUnit) (s : State) : Host.Outcome State Fault Refusal := alu (fun x y => x ^^^ y) u s
/-- XOR with an immediate (R156). -/
def execXorImm (u : VUnit) (s : State) : Host.Outcome State Fault Refusal := aluImm (fun x y => x ^^^ y) u s
/-- ANDN with register y (R156). -/
def execAndn (u : VUnit) (s : State) : Host.Outcome State Fault Refusal := alu (fun x y => x &&& ~~~ y) u s
/-- ANDN with an immediate (R156). -/
def execAndnImm (u : VUnit) (s : State) : Host.Outcome State Fault Refusal := aluImm (fun x y => x &&& ~~~ y) u s
/-- SHL with register y (R156). -/
def execShl (u : VUnit) (s : State) : Host.Outcome State Fault Refusal := alu (fun x y => opShl x y) u s
/-- SHL with an immediate (R156). -/
def execShlImm (u : VUnit) (s : State) : Host.Outcome State Fault Refusal := aluImm (fun x y => opShl x y) u s
/-- SHR with register y (R156). -/
def execShr (u : VUnit) (s : State) : Host.Outcome State Fault Refusal := alu (fun x y => opShr x y) u s
/-- SHR with an immediate (R156). -/
def execShrImm (u : VUnit) (s : State) : Host.Outcome State Fault Refusal := aluImm (fun x y => opShr x y) u s
/-- SAR with register y (R156). -/
def execSar (u : VUnit) (s : State) : Host.Outcome State Fault Refusal := alu (fun x y => opSar x y) u s
/-- SAR with an immediate (R156). -/
def execSarImm (u : VUnit) (s : State) : Host.Outcome State Fault Refusal := aluImm (fun x y => opSar x y) u s
/-- ROL with register y (R156). -/
def execRol (u : VUnit) (s : State) : Host.Outcome State Fault Refusal := alu (fun x y => opRol x y) u s
/-- ROL with an immediate (R156). -/
def execRolImm (u : VUnit) (s : State) : Host.Outcome State Fault Refusal := aluImm (fun x y => opRol x y) u s
/-- MIN with register y (R156). -/
def execMin (u : VUnit) (s : State) : Host.Outcome State Fault Refusal := alu (fun x y => opMin x y) u s
/-- MIN with an immediate (R156). -/
def execMinImm (u : VUnit) (s : State) : Host.Outcome State Fault Refusal := aluImm (fun x y => opMin x y) u s
/-- MAX with register y (R156). -/
def execMax (u : VUnit) (s : State) : Host.Outcome State Fault Refusal := alu (fun x y => opMax x y) u s
/-- MAX with an immediate (R156). -/
def execMaxImm (u : VUnit) (s : State) : Host.Outcome State Fault Refusal := aluImm (fun x y => opMax x y) u s
/-- MINU with register y (R156). -/
def execMinu (u : VUnit) (s : State) : Host.Outcome State Fault Refusal := alu (fun x y => opMinu x y) u s
/-- MINU with an immediate (R156). -/
def execMinuImm (u : VUnit) (s : State) : Host.Outcome State Fault Refusal := aluImm (fun x y => opMinu x y) u s
/-- MAXU with register y (R156). -/
def execMaxu (u : VUnit) (s : State) : Host.Outcome State Fault Refusal := alu (fun x y => opMaxu x y) u s
/-- MAXU with an immediate (R156). -/
def execMaxuImm (u : VUnit) (s : State) : Host.Outcome State Fault Refusal := aluImm (fun x y => opMaxu x y) u s
/-- SEQ with register y (R156). -/
def execSeq (u : VUnit) (s : State) : Host.Outcome State Fault Refusal := alu (fun x y => boolWord (condEq x y)) u s
/-- SEQ with an immediate (R156). -/
def execSeqImm (u : VUnit) (s : State) : Host.Outcome State Fault Refusal := aluImm (fun x y => boolWord (condEq x y)) u s
/-- SLT with register y (R156). -/
def execSlt (u : VUnit) (s : State) : Host.Outcome State Fault Refusal := alu (fun x y => boolWord (condLt x y)) u s
/-- SLT with an immediate (R156). -/
def execSltImm (u : VUnit) (s : State) : Host.Outcome State Fault Refusal := aluImm (fun x y => boolWord (condLt x y)) u s
/-- SLTU with register y (R156). -/
def execSltu (u : VUnit) (s : State) : Host.Outcome State Fault Refusal := alu (fun x y => boolWord (condLtu x y)) u s
/-- SLTU with an immediate (R156). -/
def execSltuImm (u : VUnit) (s : State) : Host.Outcome State Fault Refusal := aluImm (fun x y => boolWord (condLtu x y)) u s
/-- CLZ (R158). -/
def execClz (u : VUnit) (s : State) : Host.Outcome State Fault Refusal := unary opClz u s
/-- CTZ (R158). -/
def execCtz (u : VUnit) (s : State) : Host.Outcome State Fault Refusal := unary opCtz u s
/-- POPC (R158). -/
def execPopc (u : VUnit) (s : State) : Host.Outcome State Fault Refusal := unary opPopc u s
/-- SEXT (R159): the width kept is the immediate. -/
def execSext (u : VUnit) (s : State) : Host.Outcome State Fault Refusal :=
  aluImm (fun x y => keepBits y.toNat true x) u s
/-- ZEXT (R159). -/
def execZext (u : VUnit) (s : State) : Host.Outcome State Fault Refusal :=
  aluImm (fun x y => keepBits y.toNat false x) u s
/-- BFX (R160): pos in c, SX in XI[6], len − 1 in XI[5:0]. -/
def execBfx (u : VUnit) (s : State) : Host.Outcome State Fault Refusal :=
  issue u [u.a, u.b] [] (fun s =>
    .done (s.setG u.a (keepBits (u.xbits 5 0 + 1) (u.xbits 6 6 == 1) (s.g u.b >>> u.c.toNat)))) s
/-- BFI (R160). -/
def execBfi (u : VUnit) (s : State) : Host.Outcome State Fault Refusal :=
  issue u [u.a, u.b] [] (fun s =>
    .done (s.setG u.a (setFld (s.g u.a) (u.c.toNat + u.xbits 5 0) u.c.toNat (s.g u.b).toNat))) s
/-- SEL (R161): the old g(a) chooses. -/
def execSel (u : VUnit) (s : State) : Host.Outcome State Fault Refusal :=
  issue u [u.a, u.b, u.c] [] (fun s => .done (s.setG u.a (if s.g u.a ≠ 0 then s.g u.b else s.g u.c))) s
/-- SHADD (R162). -/
def execShadd (u : VUnit) (s : State) : Host.Outcome State Fault Refusal :=
  issue u [u.a, u.b, u.c] [] (fun s => .done (s.setG u.a ((s.g u.b <<< u.xbits 2 0) + s.g u.c))) s

end Sys2Proof.Machine
end

