-- ==== Sys2Proof/Machine/Dispatch.lean ====
section
/-! DEFINITION. What each instruction means: one arm per constructor, each a direct call of its meaning. -/

namespace Sys2Proof.Machine

/-- The effect of one instruction, failed fetch or event (R11). -/
def exec (i : Instr) (s : State) : Host.Outcome State Fault Refusal :=
  match i with
  | .nop u => Sys2Proof.Machine.execNop u s
  | .mov u => Sys2Proof.Machine.execMov u s
  | .ldi u => Sys2Proof.Machine.execLdi u s
  | .add u => Sys2Proof.Machine.execAdd u s
  | .addImm u => Sys2Proof.Machine.execAddImm u s
  | .sub u => Sys2Proof.Machine.execSub u s
  | .subImm u => Sys2Proof.Machine.execSubImm u s
  | .mul u => Sys2Proof.Machine.execMul u s
  | .mulImm u => Sys2Proof.Machine.execMulImm u s
  | .mulh u => Sys2Proof.Machine.execMulh u s
  | .mulhImm u => Sys2Proof.Machine.execMulhImm u s
  | .mulhu u => Sys2Proof.Machine.execMulhu u s
  | .mulhuImm u => Sys2Proof.Machine.execMulhuImm u s
  | .div u => Sys2Proof.Machine.execDiv u s
  | .divImm u => Sys2Proof.Machine.execDivImm u s
  | .divu u => Sys2Proof.Machine.execDivu u s
  | .divuImm u => Sys2Proof.Machine.execDivuImm u s
  | .rem u => Sys2Proof.Machine.execRem u s
  | .remImm u => Sys2Proof.Machine.execRemImm u s
  | .remu u => Sys2Proof.Machine.execRemu u s
  | .remuImm u => Sys2Proof.Machine.execRemuImm u s
  | .and u => Sys2Proof.Machine.execAnd u s
  | .andImm u => Sys2Proof.Machine.execAndImm u s
  | .or u => Sys2Proof.Machine.execOr u s
  | .orImm u => Sys2Proof.Machine.execOrImm u s
  | .xor u => Sys2Proof.Machine.execXor u s
  | .xorImm u => Sys2Proof.Machine.execXorImm u s
  | .andn u => Sys2Proof.Machine.execAndn u s
  | .andnImm u => Sys2Proof.Machine.execAndnImm u s
  | .shl u => Sys2Proof.Machine.execShl u s
  | .shlImm u => Sys2Proof.Machine.execShlImm u s
  | .shr u => Sys2Proof.Machine.execShr u s
  | .shrImm u => Sys2Proof.Machine.execShrImm u s
  | .sar u => Sys2Proof.Machine.execSar u s
  | .sarImm u => Sys2Proof.Machine.execSarImm u s
  | .rol u => Sys2Proof.Machine.execRol u s
  | .rolImm u => Sys2Proof.Machine.execRolImm u s
  | .clz u => Sys2Proof.Machine.execClz u s
  | .ctz u => Sys2Proof.Machine.execCtz u s
  | .popc u => Sys2Proof.Machine.execPopc u s
  | .min u => Sys2Proof.Machine.execMin u s
  | .minImm u => Sys2Proof.Machine.execMinImm u s
  | .max u => Sys2Proof.Machine.execMax u s
  | .maxImm u => Sys2Proof.Machine.execMaxImm u s
  | .minu u => Sys2Proof.Machine.execMinu u s
  | .minuImm u => Sys2Proof.Machine.execMinuImm u s
  | .maxu u => Sys2Proof.Machine.execMaxu u s
  | .maxuImm u => Sys2Proof.Machine.execMaxuImm u s
  | .sext u => Sys2Proof.Machine.execSext u s
  | .zext u => Sys2Proof.Machine.execZext u s
  | .bfx u => Sys2Proof.Machine.execBfx u s
  | .bfi u => Sys2Proof.Machine.execBfi u s
  | .seq u => Sys2Proof.Machine.execSeq u s
  | .seqImm u => Sys2Proof.Machine.execSeqImm u s
  | .slt u => Sys2Proof.Machine.execSlt u s
  | .sltImm u => Sys2Proof.Machine.execSltImm u s
  | .sltu u => Sys2Proof.Machine.execSltu u s
  | .sltuImm u => Sys2Proof.Machine.execSltuImm u s
  | .sel u => Sys2Proof.Machine.execSel u s
  | .shadd u => Sys2Proof.Machine.execShadd u s
  | .br u => Sys2Proof.Machine.execBr u s
  | .cbeq u => Sys2Proof.Machine.execCbeq u s
  | .cbne u => Sys2Proof.Machine.execCbne u s
  | .cblt u => Sys2Proof.Machine.execCblt u s
  | .cbge u => Sys2Proof.Machine.execCbge u s
  | .cbltu u => Sys2Proof.Machine.execCbltu u s
  | .cbgeu u => Sys2Proof.Machine.execCbgeu u s
  | .call u => Sys2Proof.Machine.execCall u s
  | .callr u => Sys2Proof.Machine.execCallr u s
  | .ret u => Sys2Proof.Machine.execRet u s
  | .jmpr u => Sys2Proof.Machine.execJmpr u s
  | .loop u => Sys2Proof.Machine.execLoop u s
  | .done u => Sys2Proof.Machine.execDone u s
  | .trap u => Sys2Proof.Machine.execTrap u s
  | .upret u => Sys2Proof.Machine.execUpret u s
  | .gets u => Sys2Proof.Machine.execGets u s
  | .sets u => Sys2Proof.Machine.execSets u s
  | .eret u => Sys2Proof.Machine.execEret u s
  | .park u => Sys2Proof.Machine.execPark u s
  | .vmov u => Sys2Proof.Machine.execVmov u s
  | .vmovStreamRead u => Sys2Proof.Machine.execVmovStreamRead u s
  | .vmovStreamWrite u => Sys2Proof.Machine.execVmovStreamWrite u s
  | .vbcast u => Sys2Proof.Machine.execVbcast u s
  | .vbcastImm u => Sys2Proof.Machine.execVbcastImm u s
  | .vextr u => Sys2Proof.Machine.execVextr u s
  | .vins u => Sys2Proof.Machine.execVins u s
  | .vadd u => Sys2Proof.Machine.execVadd u s
  | .vsub u => Sys2Proof.Machine.execVsub u s
  | .vmul u => Sys2Proof.Machine.execVmul u s
  | .vfma u => Sys2Proof.Machine.execVfma u s
  | .vfms u => Sys2Proof.Machine.execVfms u s
  | .vmin u => Sys2Proof.Machine.execVmin u s
  | .vmax u => Sys2Proof.Machine.execVmax u s
  | .vabs u => Sys2Proof.Machine.execVabs u s
  | .vneg u => Sys2Proof.Machine.execVneg u s
  | .vrcp u => Sys2Proof.Machine.execVrcp u s
  | .vrsq u => Sys2Proof.Machine.execVrsq u s
  | .vexp2 u => Sys2Proof.Machine.execVexp2 u s
  | .vand u => Sys2Proof.Machine.execVand u s
  | .vor u => Sys2Proof.Machine.execVor u s
  | .vxor u => Sys2Proof.Machine.execVxor u s
  | .vshl u => Sys2Proof.Machine.execVshl u s
  | .vshlImm u => Sys2Proof.Machine.execVshlImm u s
  | .vshr u => Sys2Proof.Machine.execVshr u s
  | .vshrImm u => Sys2Proof.Machine.execVshrImm u s
  | .vsar u => Sys2Proof.Machine.execVsar u s
  | .vsarImm u => Sys2Proof.Machine.execVsarImm u s
  | .vcmpeq u => Sys2Proof.Machine.execVcmpeq u s
  | .vcmplt u => Sys2Proof.Machine.execVcmplt u s
  | .vcmple u => Sys2Proof.Machine.execVcmple u s
  | .vsel u => Sys2Proof.Machine.execVsel u s
  | .vperm u => Sys2Proof.Machine.execVperm u s
  | .vrot u => Sys2Proof.Machine.execVrot u s
  | .vredsum u => Sys2Proof.Machine.execVredsum u s
  | .vredmax u => Sys2Proof.Machine.execVredmax u s
  | .vredmin u => Sys2Proof.Machine.execVredmin u s
  | .vcvt u => Sys2Proof.Machine.execVcvt u s
  | .vpackb u => Sys2Proof.Machine.execVpackb u s
  | .vunpkb u => Sys2Proof.Machine.execVunpkb u s
  | .vplane u => Sys2Proof.Machine.execVplane u s
  | .viota u => Sys2Proof.Machine.execViota u s
  | .viotaImm u => Sys2Proof.Machine.execViotaImm u s
  | .pand u => Sys2Proof.Machine.execPand u s
  | .por u => Sys2Proof.Machine.execPor u s
  | .pxor u => Sys2Proof.Machine.execPxor u s
  | .pnot u => Sys2Proof.Machine.execPnot u s
  | .pset u => Sys2Proof.Machine.execPset u s
  | .psetImm u => Sys2Proof.Machine.execPsetImm u s
  | .pget u => Sys2Proof.Machine.execPget u s
  | .pcnt u => Sys2Proof.Machine.execPcnt u s
  | .pfirst u => Sys2Proof.Machine.execPfirst u s
  | .sbind u => Sys2Proof.Machine.execSbind u s
  | .srel u => Sys2Proof.Machine.execSrel u s
  | .sskip u => Sys2Proof.Machine.execSskip u s
  | .vredamax u => Sys2Proof.Machine.execVredamax u s
  | .lease u => Sys2Proof.Machine.execLease u s
  | .unlease u => Sys2Proof.Machine.execUnlease u s
  | .mfmt u => Sys2Proof.Machine.execMfmt u s
  | .mldw u => Sys2Proof.Machine.execMldw u s
  | .mma u => Sys2Proof.Machine.execMma u s
  | .mmas u => Sys2Proof.Machine.execMmas u s
  | .mzero u => Sys2Proof.Machine.execMzero u s
  | .macc u => Sys2Proof.Machine.execMacc u s
  | .mscl u => Sys2Proof.Machine.execMscl u s
  | .mrow u => Sys2Proof.Machine.execMrow u s
  | .msta u => Sys2Proof.Machine.execMsta u s
  | .mlda u => Sys2Proof.Machine.execMlda u s
  | .mxch u => Sys2Proof.Machine.execMxch u s
  | .mqry u => Sys2Proof.Machine.execMqry u s
  | .mwt u => Sys2Proof.Machine.execMwt u s
  | .ldb u => Sys2Proof.Machine.execLdb u s
  | .ldh u => Sys2Proof.Machine.execLdh u s
  | .ldw u => Sys2Proof.Machine.execLdw u s
  | .ldd u => Sys2Proof.Machine.execLdd u s
  | .ldbu u => Sys2Proof.Machine.execLdbu u s
  | .ldhu u => Sys2Proof.Machine.execLdhu u s
  | .ldwu u => Sys2Proof.Machine.execLdwu u s
  | .stb u => Sys2Proof.Machine.execStb u s
  | .sth u => Sys2Proof.Machine.execSth u s
  | .stw u => Sys2Proof.Machine.execStw u s
  | .std u => Sys2Proof.Machine.execStd u s
  | .vld u => Sys2Proof.Machine.execVld u s
  | .vst u => Sys2Proof.Machine.execVst u s
  | .vlds u => Sys2Proof.Machine.execVlds u s
  | .vsts u => Sys2Proof.Machine.execVsts u s
  | .vldx u => Sys2Proof.Machine.execVldx u s
  | .vstx u => Sys2Proof.Machine.execVstx u s
  | .aadd u => Sys2Proof.Machine.execAadd u s
  | .amin u => Sys2Proof.Machine.execAmin u s
  | .amax u => Sys2Proof.Machine.execAmax u s
  | .aand u => Sys2Proof.Machine.execAand u s
  | .aor u => Sys2Proof.Machine.execAor u s
  | .axor u => Sys2Proof.Machine.execAxor u s
  | .aswap u => Sys2Proof.Machine.execAswap u s
  | .acas u => Sys2Proof.Machine.execAcas u s
  | .afadd u => Sys2Proof.Machine.execAfadd u s
  | .redadd u => Sys2Proof.Machine.execRedadd u s
  | .redfadd u => Sys2Proof.Machine.execRedfadd u s
  | .redmax u => Sys2Proof.Machine.execRedmax u s
  | .fence u => Sys2Proof.Machine.execFence u s
  | .mona u => Sys2Proof.Machine.execMona u s
  | .monw u => Sys2Proof.Machine.execMonw u s
  | .jdrain u => Sys2Proof.Machine.execJdrain u s
  | .pref u => Sys2Proof.Machine.execPref u s
  | .ofence u => Sys2Proof.Machine.execOfence u s
  | .send u => Sys2Proof.Machine.execSend u s
  | .sendv u => Sys2Proof.Machine.execSendv u s
  | .recv u => Sys2Proof.Machine.execRecv u s
  | .recvPool u => Sys2Proof.Machine.execRecvPool u s
  | .recvv u => Sys2Proof.Machine.execRecvv u s
  | .recvvPool u => Sys2Proof.Machine.execRecvvPool u s
  | .qlen u => Sys2Proof.Machine.execQlen u s
  | .spawn u => Sys2Proof.Machine.execSpawn u s
  | .xsend u => Sys2Proof.Machine.execXsend u s
  | .cpy u => Sys2Proof.Machine.execCpy u s
  | .cpy2d u => Sys2Proof.Machine.execCpy2d u s
  | .cpyq u => Sys2Proof.Machine.execCpyq u s
  | .gqpush u => Sys2Proof.Machine.execGqpush u s
  | .gqpop u => Sys2Proof.Machine.execGqpop u s
  | .hqry u => Sys2Proof.Machine.execHqry u s
  | .happ u => Sys2Proof.Machine.execHapp u s
  | .divrd u => Sys2Proof.Machine.execDivrd u s
  | .ovl u => Sys2Proof.Machine.execOvl u s
  | .tlbw u => Sys2Proof.Machine.execTlbw u s
  | .tlbi u => Sys2Proof.Machine.execTlbi u s
  | .tlbp u => Sys2Proof.Machine.execTlbp u s
  | .rlq u => Sys2Proof.Machine.execRlq u s
  | .rlqImm u => Sys2Proof.Machine.execRlqImm u s
  | .rcls u => Sys2Proof.Machine.execRcls u s
  | .bmsk u => Sys2Proof.Machine.execBmsk u s
  | .fctx u => Sys2Proof.Machine.execFctx u s
  | .psch u => Sys2Proof.Machine.execPsch u s
  | .xsch u => Sys2Proof.Machine.execXsch u s
  | .dcls u => Sys2Proof.Machine.execDcls u s
  | .latq u => Sys2Proof.Machine.execLatq u s
  | .asidg u => Sys2Proof.Machine.execAsidg u s
  | .arv u => Sys2Proof.Machine.execArv u s
  | .wtb u => Sys2Proof.Machine.execWtb u s
  | .barq u => Sys2Proof.Machine.execBarq u s
  | .prb u => Sys2Proof.Machine.execPrb u s
  | .gett u => Sys2Proof.Machine.execGett u s
  | .slack u => Sys2Proof.Machine.execSlack u s
  | .valid u => Sys2Proof.Machine.execValid u s
  | .validReg u => Sys2Proof.Machine.execValidReg u s
  | .brimx u => Sys2Proof.Machine.execBrimx u s
  | .step u => Sys2Proof.Machine.execStep u s
  | .gstep u => Sys2Proof.Machine.execGstep u s
  | .ldk u => Sys2Proof.Machine.execLdk u s
  | .stk u => Sys2Proof.Machine.execStk u s
  | .adk u => Sys2Proof.Machine.execAdk u s
  | .mrgk u => Sys2Proof.Machine.execMrgk u s
  | .vldk u => Sys2Proof.Machine.execVldk u s
  | .vadk u => Sys2Proof.Machine.execVadk u s
  | .ckmk u => Sys2Proof.Machine.execCkmk u s
  | .perf u => Sys2Proof.Machine.execPerf u s
  | .seqq u => Sys2Proof.Machine.execSeqq u s
  | .illegalInstruction tra => Sys2Proof.Machine.execIllegalInstruction tra s
  | .overlayTrap tra => Sys2Proof.Machine.execOverlayTrap tra s
  | .instructionFetchTrap tra => Sys2Proof.Machine.execInstructionFetchTrap tra s
  | .moduleReset => Sys2Proof.Machine.execModuleReset s
  | .functionReady => Sys2Proof.Machine.execFunctionReady s
  | .functionLost => Sys2Proof.Machine.execFunctionLost s
  | .clockLockGained => Sys2Proof.Machine.execClockLockGained s
  | .clockLockLost => Sys2Proof.Machine.execClockLockLost s
  | .ptpMessage => Sys2Proof.Machine.execPtpMessage s
  | .crownBudgetDivision => Sys2Proof.Machine.execCrownBudgetDivision s
  | .junctionThreshold105 => Sys2Proof.Machine.execJunctionThreshold105 s
  | .junctionThreshold115 => Sys2Proof.Machine.execJunctionThreshold115 s
  | .coolantFlowAlarm => Sys2Proof.Machine.execCoolantFlowAlarm s
  | .coolantFlowReturn => Sys2Proof.Machine.execCoolantFlowReturn s
  | .powerDomainLoss => Sys2Proof.Machine.execPowerDomainLoss s
  | .managementRegisterWrite => Sys2Proof.Machine.execManagementRegisterWrite s
  | .doorbell => Sys2Proof.Machine.execDoorbell s
  | .queueCreate => Sys2Proof.Machine.execQueueCreate s
  | .queueDestroy => Sys2Proof.Machine.execQueueDestroy s
  | .queueDestroyAndBrim => Sys2Proof.Machine.execQueueDestroyAndBrim s
  | .queueClearError => Sys2Proof.Machine.execQueueClearError s
  | .partitionEnable => Sys2Proof.Machine.execPartitionEnable s
  | .partitionDisable => Sys2Proof.Machine.execPartitionDisable s
  | .stridePass => Sys2Proof.Machine.execStridePass s
  | .launchPacket => Sys2Proof.Machine.execLaunchPacket s
  | .launchiPacket => Sys2Proof.Machine.execLaunchiPacket s
  | .loopPacket => Sys2Proof.Machine.execLoopPacket s
  | .endloopPacket => Sys2Proof.Machine.execEndloopPacket s
  | .ifPacket => Sys2Proof.Machine.execIfPacket s
  | .waitsigPacket => Sys2Proof.Machine.execWaitsigPacket s
  | .conditionReevaluation => Sys2Proof.Machine.execConditionReevaluation s
  | .signalPacket => Sys2Proof.Machine.execSignalPacket s
  | .writePacket => Sys2Proof.Machine.execWritePacket s
  | .copyPacket => Sys2Proof.Machine.execCopyPacket s
  | .fencePacket => Sys2Proof.Machine.execFencePacket s
  | .stepcPacket => Sys2Proof.Machine.execStepcPacket s
  | .timewaitPacket => Sys2Proof.Machine.execTimewaitPacket s
  | .timewaitExpiry => Sys2Proof.Machine.execTimewaitExpiry s
  | .gangRelease => Sys2Proof.Machine.execGangRelease s
  | .tileRelease => Sys2Proof.Machine.execTileRelease s
  | .gangCompletion => Sys2Proof.Machine.execGangCompletion s
  | .fatalReport => Sys2Proof.Machine.execFatalReport s
  | .forcedBrimWrite => Sys2Proof.Machine.execForcedBrimWrite s
  | .helhalHeartbeat => Sys2Proof.Machine.execHelhalHeartbeat s
  | .commandProcessorHung => Sys2Proof.Machine.execCommandProcessorHung s
  | .mailboxRead => Sys2Proof.Machine.execMailboxRead s
  | .mailboxStep => Sys2Proof.Machine.execMailboxStep s
  | .mailboxAnswer => Sys2Proof.Machine.execMailboxAnswer s
  | .mailboxRestart => Sys2Proof.Machine.execMailboxRestart s
  | .attest => Sys2Proof.Machine.execAttest s
  | .hostPageAnswer => Sys2Proof.Machine.execHostPageAnswer s
  | .gangSwitchAnnouncement => Sys2Proof.Machine.execGangSwitchAnnouncement s
  | .gangSwitch => Sys2Proof.Machine.execGangSwitch s
  | .saveTile => Sys2Proof.Machine.execSaveTile s
  | .gangResume => Sys2Proof.Machine.execGangResume s
  | .brimTime => Sys2Proof.Machine.execBrimTime s
  | .deadlineTime => Sys2Proof.Machine.execDeadlineTime s
  | .taskStart => Sys2Proof.Machine.execTaskStart s
  | .resultLanding => Sys2Proof.Machine.execResultLanding s
  | .parkWakeTime => Sys2Proof.Machine.execParkWakeTime s
  | .messageAdmission => Sys2Proof.Machine.execMessageAdmission s
  | .spawnAdmission => Sys2Proof.Machine.execSpawnAdmission s
  | .pageAnswerNotice => Sys2Proof.Machine.execPageAnswerNotice s
  | .remotePoolAccess => Sys2Proof.Machine.execRemotePoolAccess s
  | .homeSliceRequest => Sys2Proof.Machine.execHomeSliceRequest s
  | .cxlPortRequest => Sys2Proof.Machine.execCxlPortRequest s
  | .journalAcknowledgement => Sys2Proof.Machine.execJournalAcknowledgement s
  | .refusalReceipt => Sys2Proof.Machine.execRefusalReceipt s
  | .asyncTrapDelivery => Sys2Proof.Machine.execAsyncTrapDelivery s
  | .copyToken => Sys2Proof.Machine.execCopyToken s
  | .heronAppendWrite => Sys2Proof.Machine.execHeronAppendWrite s
  | .heronScan => Sys2Proof.Machine.execHeronScan s
  | .heronToken => Sys2Proof.Machine.execHeronToken s
  | .arrayCommandStart => Sys2Proof.Machine.execArrayCommandStart s
  | .arrayCommandCompletion => Sys2Proof.Machine.execArrayCommandCompletion s
  | .columnResidueMismatch => Sys2Proof.Machine.execColumnResidueMismatch s
  | .leaseEnd => Sys2Proof.Machine.execLeaseEnd s
  | .exchangeStart => Sys2Proof.Machine.execExchangeStart s
  | .exchangeEnd => Sys2Proof.Machine.execExchangeEnd s
  | .barrierWave => Sys2Proof.Machine.execBarrierWave s
  | .domainCompletion => Sys2Proof.Machine.execDomainCompletion s
  | .probeVisit => Sys2Proof.Machine.execProbeVisit s
  | .intervalTimerExpiry => Sys2Proof.Machine.execIntervalTimerExpiry s
  | .dirtyCountLimit => Sys2Proof.Machine.execDirtyCountLimit s
  | .arrivalLogThreshold => Sys2Proof.Machine.execArrivalLogThreshold s
  | .stagingAcknowledged => Sys2Proof.Machine.execStagingAcknowledged s
  | .commitBoundary => Sys2Proof.Machine.execCommitBoundary s
  | .fullBoundary => Sys2Proof.Machine.execFullBoundary s
  | .logRecordAck => Sys2Proof.Machine.execLogRecordAck s
  | .egressHoldExpiry => Sys2Proof.Machine.execEgressHoldExpiry s
  | .niInjection => Sys2Proof.Machine.execNiInjection s
  | .packetHop => Sys2Proof.Machine.execPacketHop s
  | .retransmissionTimeout => Sys2Proof.Machine.execRetransmissionTimeout s
  | .class6RetransmissionTimeout => Sys2Proof.Machine.execClass6RetransmissionTimeout s
  | .channelIdleClose => Sys2Proof.Machine.execChannelIdleClose s
  | .coreHeartbeat => Sys2Proof.Machine.execCoreHeartbeat s
  | .watchdogExpiry => Sys2Proof.Machine.execWatchdogExpiry s
  | .tscWatchdogExpiry => Sys2Proof.Machine.execTscWatchdogExpiry s
  | .detectionEvent => Sys2Proof.Machine.execDetectionEvent s
  | .optimiserCoreFailure => Sys2Proof.Machine.execOptimiserCoreFailure s
  | .millinerRepair => Sys2Proof.Machine.execMillinerRepair s
  | .causewayUpdate => Sys2Proof.Machine.execCausewayUpdate s
  | .replayEnd => Sys2Proof.Machine.execReplayEnd s
  | .backgroundRetest => Sys2Proof.Machine.execBackgroundRetest s
  | .debugHaltRequest => Sys2Proof.Machine.execDebugHaltRequest s
  | .debugHaltRelease => Sys2Proof.Machine.execDebugHaltRelease s
  | .debuggerWrite => Sys2Proof.Machine.execDebuggerWrite s
  | .flitTransmit => Sys2Proof.Machine.execFlitTransmit s
  | .flitReceive => Sys2Proof.Machine.execFlitReceive s
  | .nakReceive => Sys2Proof.Machine.execNakReceive s
  | .laneFailure => Sys2Proof.Machine.execLaneFailure s
  | .retrainComplete => Sys2Proof.Machine.execRetrainComplete s
  | .belvisFrameReceive => Sys2Proof.Machine.execBelvisFrameReceive s
  | .belvisResendTimeout => Sys2Proof.Machine.execBelvisResendTimeout s
  | .gradientPushArrival => Sys2Proof.Machine.execGradientPushArrival s
  | .popAcknowledgement => Sys2Proof.Machine.execPopAcknowledgement s
  | .optimiserCompletionNotice => Sys2Proof.Machine.execOptimiserCompletionNotice s
  | .sweepVisit => Sys2Proof.Machine.execSweepVisit s
  | .messageAcknowledgement => Sys2Proof.Machine.execMessageAcknowledgement s
  | .copyDataArrival => Sys2Proof.Machine.execCopyDataArrival s
  | .cxlMemAccess => Sys2Proof.Machine.execCxlMemAccess s
  | .fullReTest => Sys2Proof.Machine.execFullReTest s
  | .saveIncompleteResolution => Sys2Proof.Machine.execSaveIncompleteResolution s

end Sys2Proof.Machine
end

