-- ==== Sys2Proof/Machine/Fetch.lean ====
section
/-! DEFINITION. Fetching a unit (R81, R96, R339), which core and context may issue (R55, R58, R62), what a core does before
a unit, and the passing of device time (R389). -/

namespace Sys2Proof.Machine

/-- The 16-bit word at a pool offset, little-endian (R4, R81). -/
def fetchWord (m : Mem) (a : Nat) : IWord := Mem.read m (a + 1) ++ Mem.read m a

/-- The unit at pc of the context in hand, decoded in its mode, under its tile's XB and accumulators (R96). -/
def State.fetch (s : State) : Instr :=
  decodeAt { supervisor := s.cx.supervisor, nacc := s.me.nacc } (fetchWord s.me.pool) s.me.blk.lr.xb.toNat s.cx.pc

/-- Bytes that a fetch reads: those of the unit, or up to the word that fails. -/
def fetchLen (pc : Word) : Instr → Nat
  | .illegalInstruction a => (a - pc).toNat + 2
  | .overlayTrap a => (a - pc).toNat
  | .instructionFetchTrap _ => 0
  | i => match instrCode i with | some (_, _, u) => u.len | none => 0

/-- The fetch reads a range under the write lock of a copy-queue operation (R339). -/
def Tile.fetchLocked (t : Tile) (pc : Word) (n : Nat) : Bool :=
  n != 0 && t.blk.en.locks.toList.any (fun l => match l with
    | some k => k.wl && decide (k.src.toNat < 16) && k.covers (pc.toNat / 32) ((pc.toNat + n - 1) / 32)
    | none => false)

/-! ### Who may issue -/

/-- A core may issue: it is started and neither failed nor held by a switch (whose time has come, R76), a halt, a boundary (R400), the loss
of its power domain or, in ordered mode, a translation fault that stands (R62). -/
def State.mayIssue (s : State) (core : Nat) : Bool :=
  let t := s.tile core
  t.blk.lr.started && !t.vol.failed && !t.vol.switched && !(s.switchDue core && t.vol.replay.isNone) && (!t.vol.halted || t.vol.replay.isSome) &&
    s.unheld core && !s.mustCut core &&
    (if core < rimBase then !s.mg.domainsOff.contains (domainOf (s.pcnOf (homeCluster core))) else !s.rim.failedCores.contains core) &&
    !s.faultStands core

/-- The context that issues next on a core: the holder while it keeps issue; else, and where issue is free, the first ready one in ring
order after it (R55, R58). -/
def State.issuer (s : State) (core : Nat) : Option Nat :=
  let b := (s.tile core).blk
  match ((s.tile core).ctx b.hold).run, b.free with
  | .ready, false | .stalled, false => some b.hold
  | _, _ => s.nextReady core b.hold

/-- What device time asks of a core in the cycle in which it comes, before anything else that happens there: the deadline, brim time with
the diversion (R72, R148, R392), a halt that a boundary has held off (R424), the end of a park (R169). -/
def State.timely (s : State) (core : Nat) : Option State :=
  let event := fun (c : Nat) (f : State → Host.Outcome State Fault Refusal) =>
    match f { s with arg := { n := core, i := c } } with | .next t => some { t with arg := s.arg } | _ => none
  if s.deadlineDue core then event 0 execDeadlineTime
  else if s.brimDue core || s.divertDue core then some (s.brimStep core)
  else if s.haltDue core then some (s.haltTile core)
  else ((List.range 8).find? (s.wakeDue core)).bind (fun c => event c execParkWakeTime)

/-- The core at which something is due by the device time (R392). -/
def State.overdue (s : State) : Option State := (s.tiles.find? (fun e => (s.timely e.1).isSome)).bind (fun e => s.timely e.1)

/-- What a core's comparators and counters ask for at an instruction boundary, whether it has a unit to issue or not: what is due by the
time; a checkpoint boundary (R400). -/
def State.due (s : State) (core : Nat) : Option State :=
  if (s.timely core).isSome then s.timely core
  else if s.mustCut core && s.unheld core then some (s.startBoundary core)
  else none

/-- A core has something to do: what is due, a unit, or a record of its replay. -/
def State.canIssue (s : State) (core : Nat) : Bool :=
  (s.due core).isSome || (s.mayIssue core && ((s.issuer core).isSome || (s.tile core).vol.replay.isSome))

/-- The core whose unit comes next where the environment chooses none: the last one if it can, else a listed one. -/
def State.nextCore (s : State) : Option Nat :=
  if s.canIssue s.cur then some s.cur else (s.tiles.find? (fun e => s.canIssue e.1)).map (fun e => e.1)

/-- Context `c` of a core takes issue. -/
def State.focus (s : State) (core c : Nat) : State :=
  if s.cur = core ∧ s.me.blk.hold = c ∧ s.me.blk.free = false ∧ s.cx.run = .ready then s
  else ({ s with cur := core }.modMe fun t => { t with blk := { t.blk with hold := c, free := false } }).modCx fun x => { x with run := .ready }

/-! ### One issue -/

/-- What a core does at an instruction boundary instead of its next unit, once nothing is due: a pending asynchronous trap (R427), a
record of its replay (R440); `none` where the unit comes. R148 does not place the delivery of a trap among its events: a diversion that is due
comes first, and the trap is then delivered in the wrap-up (DESIGN CHOICE, entry 67). -/
def State.boundary (s : State) : Option State :=
  if s.cx.asyncDue then some (s.deliverAsync s.cur s.me.blk.hold)
  else match s.me.vol.replay with
    | some rs => s.replayStep s.cur rs
    | none => none

/-- A core with no ready context, which issues nothing; records of a replay at the current count still apply (R440). -/
def State.noneReady (s : State) (core : Nat) : State :=
  match (s.tile core).vol.replay with
  | some rs => (s.replayStep core rs).getD s
  | none => s

/-- The context in hand meets a locked range at its fetch and waits (R339). -/
def State.fetchWait (s : State) : State := (s.modCx fun c => { c with run := .waiting .overlayLock }).pass

/-! ### Parity (R229, R431) -/

/-- A read has met a parity mismatch: the tile stops, and its Milliner is still to be told. -/
def State.detect (s : State) (core : Nat) : State := s.modTile core fun t => t.modVol fun v => { v with failed := true, detected := true }

/-- Bytes of a range lie in words whose parity does not fit. -/
def Tile.struck (t : Tile) (off n : Nat) : Bool := t.par.any (fun w => decide (8 * w < off + n) && decide (off < 8 * w + 8))

/-- Every byte of some words of a core's pool changed by a function. -/
def State.onWords (s : State) (core : Nat) (ws : List Nat) (f : Byte → Byte) : State :=
  s.modTile core fun t => { t with pool := ws.foldl (fun m w => Mem.write m (8 * w) ((Mem.bytes m (8 * w) 8).map f)) t.pool }

/-- Two states, come to from one state and from the same with the words of a list filled by `f`, show that none of those words was read: all
else is the same, and each of their bytes is written alike, or kept. A word that has been written has a byte that was not kept. -/
def unread (core : Nat) (ws : List Nat) (old : Tile) (f : Byte → Byte) (s t : State) : Bool :=
  let kept := fun (a : Nat) => Mem.read (s.tile core).pool a == Mem.read old.pool a && Mem.read (t.tile core).pool a == f (Mem.read old.pool a)
  let bytes := fun (w : Nat) => (List.range 8).map (fun i => 8 * w + i)
  s.onWords core ws (fun _ => 0) == t.onWords core ws (fun _ => 0) &&
    ws.all (fun w => (bytes w).all (fun a => Mem.read (s.tile core).pool a == Mem.read (t.tile core).pool a || kept a) &&
      ((s.tile core).par.contains w || !(bytes w).all (fun a => kept a && Mem.read old.pool a != f (Mem.read old.pool a))))

/-- Two outcomes show that. -/
def sameBut (core : Nat) (ws : List Nat) (old : Tile) (f : Byte → Byte) (a b : Host.Outcome State Fault Refusal) : Bool :=
  match a, b with
  | .next s, .next t => unread core ws old f s t
  | .fault x, .fault y => x == y
  | .refused x, .refused y => x == y
  | _, _ => false

/-- The contents that stand in for those of a word whose parity does not fit. -/
def fills : List (Byte → Byte) := [fun b => ~~~b, fun _ => 0, fun _ => 0xFF, fun _ => 0x80, fun _ => 0x7F]

/-- What a step does reads a word of a core whose parity does not fit: with some other contents of these words it would come to something
else, or it writes back what it has read (R229). -/
def State.readsStruck (s : State) (core : Nat) (f : State → Host.Outcome State Fault Refusal) : Bool :=
  let t := s.tile core
  !t.par.isEmpty && fills.any (fun g => !sameBut core t.par t g (f s) (f (s.onWords core t.par g)))

/-- The tile of which a step reads such a word. -/
def State.parityHit (s : State) (f : State → Host.Outcome State Fault Refusal) : Option Nat :=
  (s.tiles.find? (fun (e : Nat × Tile) => s.readsStruck e.1 f)).map (fun e => e.1)

/-- The same load or atomic with a destination that shows its result; one to g0 makes its access too (R284). -/
def seenLoad : Instr → Option Instr
  | .ldb u => some (.ldb { u with a := 1 })
  | .ldh u => some (.ldh { u with a := 1 })
  | .ldw u => some (.ldw { u with a := 1 })
  | .ldd u => some (.ldd { u with a := 1 })
  | .ldbu u => some (.ldbu { u with a := 1 })
  | .ldhu u => some (.ldhu { u with a := 1 })
  | .ldwu u => some (.ldwu { u with a := 1 })
  | .ldk u => some (.ldk { u with a := 1 })
  | .acas u => some (.acas { u with a := 1 })
  | _ => none

/-- The operand number of the destination is 0. -/
def toZero (i : Instr) : Bool := match instrCode i with | some (_, _, u) => u.a == 0 | none => false

/-! ### The staging slots (R244, R400) -/

/-- Tiles whose dirty lines a step would bring above the 4,096 slots of a staging. -/
def State.overfull (s t : State) : List Nat :=
  (t.tiles.filter (fun (e : Nat × Tile) => t.protects e.1 && decide (4096 < e.2.dirtyCount) && decide ((s.tile e.1).dirtyCount ≤ 4096))).map (fun e => e.1)

/-- Device time passes with a step (R389, R390), and free values are drawn anew. -/
def State.tick (s : State) : State :=
  let d := Config.elapse s.fresh
  { s with clk := { s.clk with now := s.clk.now + (d + (d : Int) * s.clk.slew / 1000000).toNat }, fresh := s.fresh + 1 }

/-- Is an instruction an event: neither a unit nor a failed fetch? -/
def Instr.isEvent (i : Instr) : Bool :=
  match i with
  | .illegalInstruction _ | .overlayTrap _ | .instructionFetchTrap _ => false
  | i => (instrCode i).isNone

end Sys2Proof.Machine
end

