-- ==== Sys2Proof/Machine/Step.lean ====
section
/-! DEFINITION. One step: the environment's next choice, or the next unit; and the state in which a given instruction comes
next. -/

namespace Sys2Proof.Machine

/-- The context in hand does what its boundary asks for, or issues its unit. -/
def State.issueUnit (s : State) : Host.Outcome State Fault Refusal :=
  match s.boundary with
  | some t => .next t
  | none =>
    let i := s.fetch
    if s.me.fetchLocked s.cx.pc (fetchLen s.cx.pc i) then .next s.fetchWait
    else if s.me.struck s.cx.pc.toNat (fetchLen s.cx.pc i) then .next (s.detect s.cur)
    else if toZero i && (match seenLoad i with | some j => s.readsStruck s.cur (exec j) | none => false) then .next (s.detect s.cur)
    else exec i s

/-- A core does what is due, or issues, if it can. -/
def State.issueOn (s : State) (core : Nat) : Host.Outcome State Fault Refusal :=
  match s.due core with
  | some t => .next t
  | none =>
    if s.mayIssue core then
      match s.issuer core with
      | some c => (s.focus core c).issueUnit
      | none => .next (s.noneReady core)
    else .next s

/-- What is due by the time, in whichever core (R392); else the choice at the head of the schedule, or, with none, the next unit. -/
def State.turn (s : State) : Host.Outcome State Fault Refusal :=
  match s.overdue, s.sched with
  | some t, _ => .next t
  | none, .event i a :: r => if Instr.isEvent i then exec i { s with sched := r, arg := a } else .next { s with sched := r }
  | none, .issue core :: r => { s with sched := r }.issueOn core
  | none, [] => match s.nextCore with
    | some core => s.issueOn core
    | none => .next s

/-- The next turn, under the checks on what it reads and writes: a tile of which it reads a word with a parity mismatch stops instead (R229),
and one whose dirty lines it would bring above the staging slots starts a boundary first (R244, R400). -/
def State.checked (s : State) : Host.Outcome State Fault Refusal :=
  match s.parityHit State.turn with
  | some core => .next (s.detect core)
  | none => match s.turn with
    | .next t => if (s.overfull t).isEmpty then .next t else .next ((s.overfull t).foldl State.startBoundary s)
    | r => r

/-- One step of the module (entry 18). -/
def step (s : State) : Host.Outcome State Fault Refusal :=
  match s.checked with
  | .next t => .next t.tick
  | .fault r => .fault r
  | .refused r => .refused r

/-- The state with an instruction of the opcode table in the pool of the core in hand, at offset 0, and context 0 about to
issue it; it stands for a launch that loads that image (entry 19). -/
def State.withFetchWord (s : State) (nbits w : Nat) : State :=
  let bs := bytesOfWords (tableWords nbits w)
  let s := s.modMe fun t =>
    let t := (t.modLr fun r => { r with xb := 128, part := if r.part = 0 then 0x81 else r.part, gang := none, started := true, ord := false }).modVol
      fun v => { v with failed := false, detected := false, switchAt := none, switched := false, halted := false, phase := .none, owed := false, replay := none }
    let t := (t.modEn fun e => { e with locks := Vector.replicate 48 none }).modCtx 0 fun c => { c with pc := 0, run := .ready, apnd := [] }
    { t with pool := Mem.write t.pool 0 (bs ++ List.replicate (10 - bs.length) 0), par := parWritten t.par 0 (max 10 bs.length), blk := { t.blk with hold := 0, free := false } }
  { s with sched := [], mg := { s.mg with domainsOff := [] }, rim := { s.rim with failedCores := [] } }

end Sys2Proof.Machine
end

