-- ==== Sys2Proof/Safety.lean ====
section
/-! DEFINITION. What counts as a safe run, in the terms that claims use: no step is refused or faults, and every memory keeps
its canonical form. -/

namespace Sys2Proof.Safety

open Sys2Proof.Machine

/-- Every memory of the module is in canonical form: pools, fen-store images, device and host memory, the mailbox window. -/
def MemoriesOk (s : State) : Prop :=
  (∀ e ∈ s.tiles, Mem.wf e.2.pool = true) ∧ (∀ e ∈ s.fens, Mem.wf e.2.image = true) ∧
    Mem.wf s.dev = true ∧ Mem.wf s.host = true ∧ Mem.wf s.mg.window = true

/-- A step goes on. -/
def Goes (s : State) : Prop := ∃ t, step s = .next t

/-- A run of `n` steps from a state meets neither a fault nor a refusal. -/
def SafeRun : Nat → State → Prop
  | 0, _ => True
  | n + 1, s => match step s with
    | .next t => SafeRun n t
    | _ => False

end Sys2Proof.Safety
end

