-- ==== Sys2Proof/Claims.lean ====
section
/-! DEFINITION. The words that the statements are made of: when a unit may issue, what completing means, and what a unit of each
shape changes and leaves alone. -/

namespace Sys2Proof.Claims

open Sys2Proof.Machine

/-! ### Issuing -/

/-- An instruction completes in a state: it answers a next state, and that state has a property. -/
def Completes (i : Instr) (s : State) (P : State → Prop) : Prop := ∃ t, exec i s = .next t ∧ P t

/-- A unit with a whole predicate issues (R93, R55): it is enabled and names no register with an outstanding result. -/
def Free (s : State) (u : VUnit) (gs vs : List RegNo) : Prop := s.enabled u = true ∧ s.cx.blocking gs vs = []

/-- A unit with a predicate per lane issues (R93, R55). -/
def LanesFree (s : State) (gs vs : List RegNo) : Prop := s.cx.blocking gs vs = []

/-- The context that `s` has in hand, as it stands in `t`. -/
def here (s t : State) : Ctx := (t.tile s.cur).ctx s.me.blk.hold

/-- The core that `s` has in hand, as it stands in `t`. -/
def mine (s t : State) : Tile := t.tile s.cur

/-- The context has gone past a unit (R81, R55): pc names the next one; it is ready, or at a switch marker with results
outstanding it waits for them. -/
structure Past (u : VUnit) (a b : Ctx) : Prop where
  pc : b.pc = a.pc + BitVec.ofNat 64 (2 * u.words)
  run : b.run = if u.sw = true ∧ b.outs ≠ [] then .waiting (.results (b.outs.map (fun o => o.id))) else .ready

/-! ### Steps -/

/-- No word of any pool has a parity that does not fit (R229). -/
def Sound (s : State) : Prop := ∀ e ∈ s.tiles, e.2.par = []

/-- What a step comes to whose turn would answer `t`: where that would bring a tile's dirty lines above the staging slots, the tile starts
its boundary first (R244, R400). -/
def Within (s t : State) : State := if (s.overfull t).isEmpty then t else (s.overfull t).foldl State.startBoundary s

/-- The turn is a core's: the environment has chosen nothing and the core is the next that has something to do, or it has chosen the core.
`t` is the state in which the core takes its turn. -/
inductive TurnOf (s : State) (core : Nat) : State → Prop
  | next : s.sched = [] → s.nextCore = some core → TurnOf s core s
  | chosen (r : List Choice) : s.sched = .issue core :: r → TurnOf s core { s with sched := r }

/-! ### Frames -/

/-- Of the module, only the core in hand has changed. -/
structure OnlyCore (s t : State) : Prop where
  rest : t = { s with tiles := t.tiles }
  cores : ∀ k, k ≠ s.cur → t.tile k = s.tile k

/-- Of the core in hand, only its contexts, the holder of issue and the counters of R402 and R434 have changed: pool, launch
registers, array, barriers, NI, engines, TLBs and queues are as before. One unit has been counted. -/
def CoreKept (a b : Tile) : Prop :=
  b = { a with blk := { a.blk with cx := b.blk.cx, hold := b.blk.hold, free := b.blk.free, ct := { a.blk.ct with ucnt := b.blk.ct.ucnt, pcs := b.blk.ct.pcs } } } ∧
    b.blk.ct.ucnt = a.blk.ct.ucnt + 1

/-- Of the module, only the context in hand has changed, and who holds issue. -/
structure OnlyContext (s t : State) : Prop where
  core : OnlyCore s t
  kept : CoreKept s.me (mine s t)
  others : ∀ c, c % 8 ≠ s.me.blk.hold % 8 → (mine s t).ctx c = s.me.ctx c

/-- A unit's whole result is one general register (R139: none where it is g0). -/
structure ScalarResult (s : State) (u : VUnit) (d : RegNo) (v : Word) (t : State) : Prop where
  frame : OnlyContext s t
  past : Past u s.cx (here s t)
  regs : ∀ r, (here s t).rg r = if r = d ∧ r ≠ 0 then v else s.cx.rg r
  kept : here s t = { s.cx with pc := (here s t).pc, g := (here s t).g, run := (here s t).run }

/-- A unit's whole result is one predicate register (R139: none where it is p0). -/
structure PredResult (s : State) (u : VUnit) (d : BitVec 3) (v : BitVec 32) (t : State) : Prop where
  frame : OnlyContext s t
  past : Past u s.cx (here s t)
  regs : ∀ r, (here s t).rp r = if r = d ∧ r ≠ 0 then v else s.cx.rp r
  kept : here s t = { s.cx with pc := (here s t).pc, p := (here s t).p, run := (here s t).run }

/-- A unit's whole result is one stream register and one general register. -/
structure StreamResult (s : State) (u : VUnit) (d : BitVec 3) (x : BitVec 128) (e : RegNo) (v : Word) (t : State) : Prop where
  frame : OnlyContext s t
  past : Past u s.cx (here s t)
  streams : ∀ r, (here s t).rs r = if r = d then x else s.cx.rs r
  regs : ∀ r, (here s t).rg r = if r = e ∧ r ≠ 0 then v else s.cx.rg r
  kept : here s t = { s.cx with pc := (here s t).pc, g := (here s t).g, s := (here s t).s, run := (here s t).run }

/-- A unit that changes nothing but the place in the program. -/
structure NoResult (s : State) (u : VUnit) (t : State) : Prop where
  frame : OnlyContext s t
  past : Past u s.cx (here s t)
  kept : here s t = { s.cx with pc := (here s t).pc, run := (here s t).run }

/-- The unit has set pc to `target`, and its whole other result is one general register. -/
structure Jumped (s : State) (u : VUnit) (target : Word) (d : RegNo) (v : Word) (t : State) : Prop where
  frame : OnlyContext s t
  pc : (here s t).pc = target
  run : (here s t).run = if u.sw = true ∧ s.cx.outs ≠ [] then .waiting (.results (s.cx.outs.map (fun o => o.id))) else .ready
  regs : ∀ r, (here s t).rg r = if r = d ∧ r ≠ 0 then v else s.cx.rg r
  kept : here s t = { s.cx with pc := (here s t).pc, g := (here s t).g, run := (here s t).run }

/-! ### Pools -/

/-- The byte that a list of stores leaves at an offset: that of the last one that covers it. -/
def lastStore (els : List (Nat × List Byte)) (x : Nat) (old : Byte) : Byte :=
  els.foldl (fun b e => if e.1 ≤ x ∧ x < e.1 + e.2.length then e.2.getD (x - e.1) 0 else b) old

/-- The divert slots that software has written, after a list of stores: those that one of them touches too (R309). -/
def slotsAfter (a : Tile) (els : List (Nat × List Byte)) : List (Nat × Nat) :=
  els.foldl (fun l e => if e.2.length = 0 then l else l ++ a.slots.filter (fun k =>
    decide (e.1 < a.slotAddr k.1 k.2 + 160) && decide (a.slotAddr k.1 k.2 < e.1 + e.2.length) && !l.contains k)) a.blk.ni.swrote

/-- The words with a parity mismatch before and after a list of stores (R229): none is new, one that no store touches stays, and one that
stays has kept its bytes. -/
structure ParityAfter (a b : Tile) (els : List (Nat × List Byte)) : Prop where
  old : ∀ w ∈ b.par, w ∈ a.par ∧ ∀ i, i < 8 → Mem.read b.pool (8 * w + i) = Mem.read a.pool (8 * w + i)
  stays : ∀ w ∈ a.par, els.any (fun e => decide (0 < e.2.length ∧ e.1 / 8 ≤ w ∧ 8 * w < e.1 + e.2.length)) = false → w ∈ b.par

/-- Of the core in hand, only its pool, contexts, holder and counters have changed, and the pool has changed by exactly the
stores given; each line stored to is marked dirty (R400). -/
structure PoolStored (a b : Tile) (els : List (Nat × List Byte)) : Prop where
  kept : b = { a with pool := b.pool, par := b.par, blk := { a.blk with ni := { a.blk.ni with swrote := slotsAfter a els }, cx := b.blk.cx, hold := b.blk.hold, free := b.blk.free, ct := { a.blk.ct with ucnt := b.blk.ct.ucnt, pcs := b.blk.ct.pcs, dlb := b.blk.ct.dlb, dcnt := b.blk.ct.dcnt } } }
  parity : ParityAfter a b els
  unit : b.blk.ct.ucnt = a.blk.ct.ucnt + 1
  bytes : ∀ x, Mem.read b.pool x = lastStore els x (Mem.read a.pool x)
  canonical : Mem.wf a.pool = true → Mem.wf b.pool = true
  dirty : ∀ e ∈ els, ∀ x, e.1 ≤ x → x < e.1 + e.2.length → x < 2 ^ 21 → b.blk.ct.dlb.getLsbD (x / 128) = true
  clean : ∀ l, a.blk.ct.dlb.getLsbD l = true → b.blk.ct.dlb.getLsbD l = true

/-- What a list of stores does to the monitor of a context (R298). -/
def metBy (els : List (Nat × List Byte)) (c : Ctx) : Ctx :=
  els.foldl (fun c e => if e.2.length = 0 then c else c.monitored (e.1 / 128) ((e.1 + e.2.length - 1) / 128)) c

/-- A unit's whole result is a list of stores into the pool of the core in hand, and a change `f` of its context: of the other
contexts only the monitors see it. -/
structure StoreResult (s : State) (u : VUnit) (els : List (Nat × List Byte)) (f : Ctx → Ctx) (t : State) : Prop where
  core : OnlyCore s t
  pool : PoolStored s.me (mine s t) els
  others : ∀ c, c % 8 ≠ s.me.blk.hold % 8 → (mine s t).ctx c = metBy els (s.me.ctx c)
  past : Past u s.cx (here s t)
  here : here s t = { metBy els (f s.cx) with pc := (here s t).pc, run := (here s t).run }

/-- A unit's whole result is one vector register (R137: 128 bytes of its context area). -/
def VectorResult (s : State) (u : VUnit) (d : RegNo) (v : Vec) (t : State) : Prop :=
  StoreResult s u [(ctxArea s.me.blk.hold + 128 * d.toNat, vecBytes v)] id t ∧ (mine s t).rv s.me.blk.hold d = v ∧
    ∀ r, r ≠ d → (mine s t).rv s.me.blk.hold r = s.v r

/-- A unit's result is one vector register where it writes an element of it; where it writes none, nothing has changed (R176). -/
structure VectorWhere (s : State) (u : VUnit) (d : RegNo) (writes : Prop) (v : Vec) (t : State) : Prop where
  some : writes → VectorResult s u d v t
  none : ¬ writes → NoResult s u t

/-- A unit's whole result is a change `f` of its context. -/
structure CtxResult (s : State) (u : VUnit) (f : Ctx → Ctx) (t : State) : Prop where
  frame : OnlyContext s t
  past : Past u s.cx (here s t)
  here : here s t = { f s.cx with pc := (here s t).pc, run := (here s t).run }

/-- Of the core in hand, what a change `f` of the parts beside contexts and counters makes of it. -/
def CoreChanged (f : Tile → Tile) (a b : Tile) : Prop :=
  b = { f a with blk := { (f a).blk with cx := b.blk.cx, hold := b.blk.hold, free := b.blk.free, ct := { (f a).blk.ct with ucnt := b.blk.ct.ucnt, pcs := b.blk.ct.pcs } } } ∧
    b.blk.ct.ucnt = a.blk.ct.ucnt + 1

/-- A unit's whole result is a change `f` of its core beside the contexts, and a change `h` of its context. -/
structure CoreResult (s : State) (u : VUnit) (f : Tile → Tile) (h : Ctx → Ctx) (t : State) : Prop where
  core : OnlyCore s t
  kept : CoreChanged f s.me (mine s t)
  others : ∀ c, c % 8 ≠ s.me.blk.hold % 8 → (mine s t).ctx c = s.me.ctx c
  past : Past u s.cx (here s t)
  here : here s t = { h s.cx with pc := (here s t).pc, run := (here s t).run }

/-- A unit's whole result is a change `f` of its core beside the contexts, and a change `h` of its context, whose state and pc
`h` sets: its context does not go past the unit by itself (DONE, PARK, waits). -/
structure Away (s : State) (f : Tile → Tile) (h : Ctx → Ctx) (t : State) : Prop where
  core : OnlyCore s t
  kept : CoreChanged f s.me (mine s t)
  others : ∀ c, c % 8 ≠ s.me.blk.hold % 8 → (mine s t).ctx c = s.me.ctx c
  here : here s t = h s.cx

/-- The unit has not issued: nothing of the module has changed but that its context waits and issue may have passed on. -/
structure Waits (s : State) (w : Wait) (t : State) : Prop where
  core : OnlyCore s t
  kept : mine s t = { s.me with blk := { s.me.blk with cx := (mine s t).blk.cx, hold := (mine s t).blk.hold, free := (mine s t).blk.free, ct := { s.me.blk.ct with pcs := (mine s t).blk.ct.pcs } } }
  others : ∀ c, c % 8 ≠ s.me.blk.hold % 8 → (mine s t).ctx c = s.me.ctx c
  here : here s t = { s.cx with run := .waiting w }

/-! ### Shapes of page 0 (R155 to R165) -/

/-- A two-operand unit with register y (R156, pattern A2) completes with the result `f x y` in g(a). -/
def Alu (i : VUnit → Instr) (f : Word → Word → Word) : Prop :=
  ∀ (s : State) (u : VUnit), Free s u (if u.xr then [u.a, u.b, u.c] else [u.a, u.b]) [] →
    Completes (i u) s (ScalarResult s u u.a (if u.xr then f (s.cx.rg u.b) (s.cx.rg u.c) else f (s.cx.rg u.a) (s.cx.rg u.b)))

/-- A two-operand unit with an immediate (R156, pattern A2I). -/
def AluImm (i : VUnit → Instr) (f : Word → Word → Word) : Prop :=
  ∀ (s : State) (u : VUnit), Free s u (if u.xr then [u.a, u.c] else [u.a]) [] →
    Completes (i u) s (ScalarResult s u u.a (f (if u.xr then s.cx.rg u.c else s.cx.rg u.a) u.ik))

/-- Both forms of an instruction of R156. -/
def AluBoth (i j : VUnit → Instr) (f : Word → Word → Word) : Prop := Alu i f ∧ AluImm j f

/-- A one-operand unit of pattern A1 completes with `f (g(b))` in g(a). -/
def Unary (i : VUnit → Instr) (f : Word → Word) : Prop :=
  ∀ (s : State) (u : VUnit), Free s u [u.a, u.b] [] → Completes (i u) s (ScalarResult s u u.a (f (s.cx.rg u.b)))

/-- The rotation of R156. -/
def rolBits (x y : Word) : Word := (x <<< (y.toNat % 64)) ||| (x >>> (64 - y.toNat % 64))

/-- One word for a relation that holds, zero for one that does not. -/
def flagWord (p : Prop) [Decidable p] : Word := if p then 1 else 0

/-- The quotient and remainder of R157 on values as s64. -/
def quoS (x y : Word) : Word := if y = 0 then -1 else if x = BitVec.ofNat 64 (2 ^ 63) ∧ y = -1 then x else BitVec.ofInt 64 (x.toInt.tdiv y.toInt)
def remS (x y : Word) : Word :=
  if y = 0 then x else if x = BitVec.ofNat 64 (2 ^ 63) ∧ y = -1 then 0 else BitVec.ofInt 64 (x.toInt - x.toInt.tdiv y.toInt * y.toInt)
/-- The quotient and remainder of R157 on values as u64. -/
def quoU (x y : Word) : Word := if y = 0 then -1 else BitVec.ofNat 64 (x.toNat / y.toNat)
def remU (x y : Word) : Word := if y = 0 then x else BitVec.ofNat 64 (x.toNat - x.toNat / y.toNat * y.toNat)

/-- A compare-and-branch unit (R165) completes: taken, pc is PC + 2 × offset; not taken, the next unit follows. -/
def BranchIf (i : VUnit → Instr) (p : Word → Word → Prop) : Prop :=
  ∀ (s : State) (u : VUnit), Free s u [u.a, u.b] [] →
    (p (s.cx.rg u.a) (s.cx.rg u.b) → Completes (i u) s (Jumped s u (s.cx.pc + 2 * u.ic) 0 0)) ∧
      (¬ p (s.cx.rg u.a) (s.cx.rg u.b) → Completes (i u) s (NoResult s u))

/-- GETS of register `n` completes with the value `f` gives (R144, R173); a supervisor-only register in supervisor mode. -/
def Reads (n : Nat) (f : State → Word) : Prop :=
  ∀ (s : State) (u : VUnit), u.x = n → (0x100 ≤ n → s.cx.supervisor = true) → Free s u [u.a] [] →
    Completes (.gets u) s (ScalarResult s u u.a (f s))

/-- SETS of register `n` of the context completes with the change that `f` gives (R144, R173, R174), in a mode that may write it
(`user`: both modes). -/
def SetsCtx (n : Nat) (user : Bool) (f : Word → Ctx → Ctx) : Prop :=
  ∀ (s : State) (u : VUnit), u.x = n → (user = false → s.cx.supervisor = true) → Free s u [u.b] [] →
    Completes (.sets u) s (CtxResult s u (f (s.cx.rg u.b)))

/-- SETS of register `n` of the tile completes with the change that `f` gives, for a value that keeps the register's rule. -/
def SetsTile (n : Nat) (user : Bool) (ok : State → Word → Prop) (f : Word → LaunchRegs → LaunchRegs) : Prop :=
  ∀ (s : State) (u : VUnit), u.x = n → (user = false → s.cx.supervisor = true) → Free s u [u.b] [] → ok s (s.cx.rg u.b) →
    Completes (.sets u) s (CoreResult s u (fun t => t.modLr (f (s.cx.rg u.b))) id)

/-- GETS may read the register that its unit names, in the mode of the context in hand (R144). -/
def MayGet (s : State) (u : VUnit) : Prop :=
  (u.x ≤ 0x00B ∨ 0x010 ≤ u.x ∧ u.x ≤ 0x015 ∨ u.x = 0x018 ∨ u.x = 0x019 ∨ 0x01C ≤ u.x ∧ u.x ≤ 0x020) ∨ s.cx.supervisor = true ∧ 0x100 ≤ u.x ∧ u.x ≤ 0x106

/-- SETS may write it (R144). -/
def MaySet (s : State) (u : VUnit) : Prop :=
  (u.x = 0x000 ∨ u.x = 0x00B ∨ u.x = 0x018 ∨ u.x = 0x01C ∨ u.x = 0x01D) ∨
    s.cx.supervisor = true ∧ (u.x = 0x019 ∨ u.x = 0x01E ∨ u.x = 0x01F ∨ u.x = 0x020 ∨ 0x100 ≤ u.x ∧ u.x ≤ 0x106)

/-- An entry offset of R146: even, and below XB. -/
def Entry (s : State) (e : Nat) : Prop := e % 2 = 0 ∧ e < s.me.blk.lr.xb.toNat

/-! ### Traps (R154, R428) -/

/-- The context in hand of a tile has taken a precise trap of its unit: EPC, TRC, TRA and pc are written, nothing else of the
context but that it is ready; the unit is counted (R434), and issue may pass on. -/
structure Trapped (s : State) (cause : Nat) (tra : Word) (handler : Word) (t : State) : Prop where
  frame : OnlyContext s t
  here : here s t = { s.cx with epc := s.cx.pc, trc := BitVec.ofNat 16 (512 + cause), tra := tra, pc := handler, run := .ready }

/-- The handler of a trap on a tile (R425): UPV.OVH for the overlay trap, TRV for every other. -/
def handlerOf (s : State) (cause : Nat) : Word :=
  if cause = 3 then BitVec.ofNat 64 (fld s.me.blk.lr.upv 52 32) else s.me.blk.lr.trv.setWidth 64

/-- The context in hand has taken the fatal path (R428): EPC, TRA and TRC.CAU are written, NEST and ASY stand, and it stops. -/
structure Stopped (s : State) (cause : Nat) (tra : Word) (t : State) : Prop where
  run : (here s t).run = .stopped true
  place : (here s t).epc = s.cx.pc ∧ (here s t).pc = s.cx.pc ∧ (here s t).tra = tra
  trc : fld (here s t).trc 7 0 = cause ∧ fld (here s t).trc 15 8 = fld s.cx.trc 15 8
  regs : ∀ r, (here s t).rg r = s.cx.rg r
  cores : ∀ k, k ≠ s.cur → t.tile k = s.tile k
  others : (mine s t).pool = s.me.pool ∧ ∀ c, c % 8 ≠ s.me.blk.hold % 8 → (mine s t).ctx c = s.me.ctx c

/-- What a fetch that gives no unit comes to, in every state (R96, R154, R425, R428). -/
structure FetchFailed (s : State) (cause : Nat) (tra : Word) (t : State) : Prop where
  enters : s.cur < 30720 → s.cx.nest = false → handlerOf s cause ≠ 0 → Trapped s cause tra (handlerOf s cause) t
  fatal : s.cur < 30720 → s.cx.nest = true ∨ handlerOf s cause = 0 → Stopped s cause tra t
  supervisor : 30720 ≤ s.cur → s.cx.svec ≠ 0 → OnlyContext s t ∧ here s t = { s.cx with
    sepc := s.cx.pc, sec := BitVec.ofNat 64 cause, sst := setFld s.cx.sst 0 0 s.cx.supervisor.toNat, supervisor := true, pc := s.cx.svec, run := .ready }
  none : 30720 ≤ s.cur → s.cx.svec = 0 → Stopped s cause tra t

/-- A tile, with no trap open in the context in hand, and a handler in TRV. -/
def CanTrap (s : State) : Prop :=
  s.cur < 30720 ∧ s.cx.nest = false ∧ s.me.blk.lr.trv ≠ 0

/-! ### Shapes of page 1 (R176, R183) -/

/-- A unit of page 1 completes with a vector register whose elements of the unit's type are `f`'s where the element is enabled, and
the old ones elsewhere (R176: an element is enabled by the predicate bit of its lane, and with none enabled nothing happens). -/
def Elementwise (i : VUnit → Instr) (gs vs : VUnit → List RegNo) (f : State → VUnit → Nat → Nat) : Prop :=
  ∀ (s : State) (u : VUnit), LanesFree s (gs u) (vs u) →
    ∃ x : Vec, Completes (i u) s (VectorWhere s u u.a (∃ k, k < 1024 / widthOf u.ety ∧ s.lane u (k * widthOf u.ety / 32) = true) x) ∧
    ∀ k, k < 1024 / widthOf u.ety → vecEl (widthOf u.ety) x k =
      if s.lane u (k * widthOf u.ety / 32) then f s u k % 2 ^ widthOf u.ety else vecEl (widthOf u.ety) (s.v u.a) k

/-- Element k of v(r), of the unit's type. -/
def el (s : State) (u : VUnit) (r : RegNo) (k : Nat) : Nat := vecEl (widthOf u.ety) (s.v r) k

/-- Two v operands of pattern A2 (R183): element k of x and of y. -/
def elX (s : State) (u : VUnit) (k : Nat) : Nat := el s u (if u.xr then u.b else u.a) k
def elY (s : State) (u : VUnit) (k : Nat) : Nat := el s u (if u.xr then u.c else u.b) k
/-- The v operand of pattern A2I. -/
def elXi (s : State) (u : VUnit) (k : Nat) : Nat := el s u (if u.xr then u.c else u.a) k

def vregs2 (u : VUnit) : List RegNo := if u.xr then [u.a, u.b, u.c] else [u.a, u.b]
def vregs2i (u : VUnit) : List RegNo := if u.xr then [u.a, u.c] else [u.a]

/-- A binary element-wise unit (R183). -/
def Lanes2 (i : VUnit → Instr) (f : Nat → Nat → Nat → Nat → Nat) : Prop :=
  Elementwise i (fun _ => []) vregs2 (fun s u k => f u.ety u.rnd (elX s u k) (elY s u k))
/-- A unary element-wise unit (R181, R185). -/
def Lanes1 (i : VUnit → Instr) (f : Nat → Nat → Nat → Nat) : Prop :=
  Elementwise i (fun _ => []) (fun u => [u.a, u.b]) (fun s u k => f u.ety u.rnd (el s u u.b k))
/-- A three-operand element-wise unit (R184). -/
def Lanes3 (i : VUnit → Instr) (f : Nat → Nat → Nat → Nat → Nat → Nat) : Prop :=
  Elementwise i (fun _ => []) (fun u => [u.a, u.b, u.c]) (fun s u k => f u.ety u.rnd (el s u u.a k) (el s u u.b k) (el s u u.c k))

/-- The mask M of R198: lane j's predicate bit, inverted by the negate flag. -/
def maskBit (s : State) (u : VUnit) (j : Nat) : Bool := (s.cx.rp u.pred).getLsbD j ^^ u.neg

/-- A unit whose result is a predicate register: bit j is `f j` where M holds, the old bit elsewhere (R190, R198). -/
def Mask (i : VUnit → Instr) (gs vs : VUnit → List RegNo) (f : State → VUnit → Nat → Bool) : Prop :=
  ∀ (s : State) (u : VUnit), LanesFree s (gs u) (vs u) → ∃ m : BitVec 32, Completes (i u) s (PredResult s u (u.a.setWidth 3) m) ∧
    ∀ j, j < 32 → m.getLsbD j = if maskBit s u j then f s u j else (s.p u.a).getLsbD j

/-- The relation of a vector compare on lane j (R190): it holds for every element of the lane. -/
def laneHolds (rel : Nat) (s : State) (u : VUnit) (j : Nat) : Bool :=
  (List.range (32 / widthOf u.ety)).all fun k =>
    elRel u.ety rel (el s u u.b (j * (32 / widthOf u.ety) + k)) (el s u u.c (j * (32 / widthOf u.ety) + k))

/-- The predicate operands of pattern A2 (R198). -/
def bitX (s : State) (u : VUnit) (j : Nat) : Bool := (s.p (if u.xr then u.b else u.a)).getLsbD j
def bitY (s : State) (u : VUnit) (j : Nat) : Bool := (s.p (if u.xr then u.c else u.b)).getLsbD j

/-- A unit whose result is a general register, with a predicate per lane. -/
def LanesToScalar (i : VUnit → Instr) (gs vs : VUnit → List RegNo) (f : State → VUnit → Word) : Prop :=
  ∀ (s : State) (u : VUnit), LanesFree s (gs u) (vs u) → Completes (i u) s (ScalarResult s u u.a (f s u))

/-- The elements of v(b), a disabled one replaced by an identity (R194). -/
def enabledEls (s : State) (u : VUnit) (id : Nat) : List Nat :=
  (List.range (1024 / widthOf u.ety)).map fun k => if s.lane u (k * widthOf u.ety / 32) then el s u u.b k else id

/-- A unit's result is one vector register and a change `f` of its context. -/
def VectorAnd (s : State) (u : VUnit) (d : RegNo) (v : Vec) (f : Ctx → Ctx) (t : State) : Prop :=
  StoreResult s u [(ctxArea s.me.blk.hold + 128 * d.toNat, vecBytes v)] f t ∧ (mine s t).rv s.me.blk.hold d = v

/-- A range of the own pool that an access of `n` bytes may reach (R230, R263, R279): at or above XB, below the partition areas,
under no lock that stops it. -/
structure OwnOk (s : State) (a n : Nat) (write : Bool) : Prop where
  low : s.me.blk.lr.xb.toNat ≤ a
  high : a + n ≤ s.me.abase
  locks : s.me.lockHit write a n = false

/-- No outstanding acquire holds the context's accesses (R256). -/
def NotHeld (s : State) : Prop := s.cx.acquires 0 = []

/-- A release at a scope need not wait (R283): below scope 2, or every earlier access has been performed. -/
def RelFree (s : State) (rel : Option Nat) : Prop :=
  ∀ k, rel = some k → 2 ≤ k → s.performed s.cur s.me.blk.hold s.nextId k = true

/-- Address of element e of a stream (R200). -/
def strAddr (x : BitVec 128) (e : Nat) : Int := (fld x 20 0 : Int) + sInt 32 (fld x 63 32) * e
/-- Elements of one access of a stream (R200). -/
def strTake (x : BitVec 128) : Nat := min (fld x 95 64) (128 / strSize x)
/-- Every enabled element of an access lies in the own pool, aligned, where it may be reached. -/
def StreamOk (s : State) (u : VUnit) (x : BitVec 128) (write : Bool) : Prop :=
  ∀ e, e < strTake x → s.strEl u (strSize x) e = true →
    ∃ a : Nat, strAddr x e = a ∧ a % min (strSize x) 4 = 0 ∧ OwnOk s a (strSize x) write

/-- What a stream holds after `n` elements (R200, R201): the position moved by strides, the count down. -/
structure StreamMoved (x y : BitVec 128) (n : Nat) : Prop where
  count : fld y 95 64 = fld x 95 64 - n
  place : (fld y 20 0 : Int) = (fld x 20 0 + sInt 32 (fld x 63 32) * n) % 2 ^ 21
  rest : fld y 127 96 = fld x 127 96 ∧ fld y 63 32 = fld x 63 32 ∧ fld y 31 21 = fld x 31 21

/-! ### Shapes of page 3 (R277 to R301) -/

/-- An element of `n` bytes at an address lies in the own pool, aligned, where it may be reached (R230, R232, R279). -/
structure OwnPlace (s : State) (a : Word) (n : Nat) (write : Bool) : Prop where
  own : s.classify a n = some (0, s.cur)
  align : a.toNat % n = 0
  ok : OwnOk s (fld a 20 0) n write

/-- The release qualifier of a load need not wait (R283). -/
def LoadRel (s : State) (u : VUnit) : Prop := isRel u = true → RelFree s (some (s.widened u.scope))

/-- A scalar load of `n` bytes from the own pool completes with its register value (R284). -/
def LoadsOwn (i : VUnit → Instr) (n : Nat) (signed : Bool) : Prop :=
  ∀ (s : State) (u : VUnit), Free s u (u.a :: regsM u) [] → NotHeld s → LoadRel s u → OwnPlace s (s.addrM u) n false →
    let x := Mem.nat s.me.pool (fld (s.addrM u) 20 0) n
    Completes (i u) s (ScalarResult s u u.a (if signed then BitVec.ofInt 64 (sInt (8 * n) x) else BitVec.ofNat 64 x))

/-- A scalar store of `n` bytes to the own pool completes: those bytes are stored, and nothing else (R285). -/
def StoresOwn (i : VUnit → Instr) (n : Nat) : Prop :=
  ∀ (s : State) (u : VUnit), Free s u (u.a :: regsM u) [] → NotHeld s → RelFree s (s.relScope u) → OwnPlace s (s.addrM u) n true →
    Completes (i u) s (StoreResult s u [(fld (s.addrM u) 20 0, leBytes n (s.cx.rg u.a).toNat)] (fun c => { c with relNext := none }))

/-- A vector load whose enabled elements of `z u` bytes all lie in the own pool completes: each enabled element is its memory
element, the others are kept; with none enabled nothing happens (R280, R286 to R288). -/
def VectorLoadsOwn (i : VUnit → Instr) (z : VUnit → Nat) (addr : VUnit → State → Nat → Word) (gs vs : VUnit → List RegNo) : Prop :=
  (∀ (s : State) (u : VUnit), LanesFree s (gs u) (u.a :: vs u) → NotHeld s → LoadRel s u → s.enEls u (z u) ≠ [] →
    (∀ e ∈ s.enEls u (z u), OwnPlace s (addr u s e) (z u) false) →
    ∃ v : Vec, Completes (i u) s (VectorResult s u u.a v) ∧ ∀ e, e < 128 / z u → vecEl (8 * z u) v e =
      if s.lane u (e * z u / 4) then Mem.nat s.me.pool (fld (addr u s e) 20 0) (z u) else vecEl (8 * z u) (s.v u.a) e) ∧
  (∀ (s : State) (u : VUnit), LanesFree s (gs u) (u.a :: vs u) → s.enEls u (z u) = [] → Completes (i u) s (NoResult s u))

/-- A vector store whose enabled elements all lie in the own pool completes: they are stored in ascending order (R289). -/
def VectorStoresOwn (i : VUnit → Instr) (z : VUnit → Nat) (addr : VUnit → State → Nat → Word) (gs vs : VUnit → List RegNo) : Prop :=
  (∀ (s : State) (u : VUnit), LanesFree s (gs u) (u.a :: vs u) → NotHeld s → RelFree s (s.relScope u) → s.enEls u (z u) ≠ [] →
    (∀ e ∈ s.enEls u (z u), OwnPlace s (addr u s e) (z u) true) →
    Completes (i u) s (StoreResult s u
      ((s.enEls u (z u)).map fun e => (fld (addr u s e) 20 0, leBytes (z u) (vecEl (8 * z u) (s.v u.a) e))) (fun c => { c with relNext := none }))) ∧
  (∀ (s : State) (u : VUnit), LanesFree s (gs u) (u.a :: vs u) → s.enEls u (z u) = [] → Completes (i u) s (NoResult s u))

/-- A core can send a class 6 packet to an owner now: the channel has an entry, or gets one (R370). -/
def CanSend (s : State) (o : Owner) : Prop := (s.number s.cur (ownerCode o) 6).isSome = true

/-- A result of this kind may become outstanding now (R282). -/
def RoomFor (s : State) (o : Owner) : Prop :=
  match o with
  | .pool _ => s.me.outKind .pool < 32
  | _ => s.me.outKind .dev < 8

/-- The unit sent one request of class 6 to an owner (a bank's goes to its home slice), and did nothing else to the packets in flight but a channel's close marker. -/
structure SentRequest (s : State) (o : Owner) (op : MemOp) (t : State) : Prop where
  packet : ∃ p ∈ t.net, p.src = .pool s.cur ∧ p.dst = o.home ∧ p.cls = 6 ∧ p.stage = .queued ∧
    ∃ r, p.body = .req r ∧ r.op = op ∧ r.src = s.cur ∧ r.owner = o.home ∧ r.heron = o.isBank ∧ r.ctx = s.me.blk.hold % 8 ∧ r.tsn = s.cx.tsn ∧ r ∈ (mine s t).blk.ni.reqs
  others : ∀ p ∈ s.net, p ∈ t.net

/-- No memory and no register has changed. Where the tile logs, its log may have grown, by the close of an idle channel (R370, R438). -/
structure Untouched (s t : State) : Prop where
  pools : ∀ k, (t.tile k).pool = (s.tile k).pool
  memory : t.dev = s.dev ∧ t.host = s.host
  cores : ∀ k, k ≠ s.cur → t.tile k = s.tile k
  regs : ∀ r, (here s t).rg r = s.cx.rg r
  preds : (here s t).p = s.cx.p ∧ (here s t).s = s.cx.s
  others : ∀ c, c % 8 ≠ s.me.blk.hold % 8 → (mine s t).ctx c = s.me.ctx c
  rest : t.rim = s.rim ∧ t.cp = s.cp ∧ t.mg = s.mg ∧ t.clk = s.clk ∧ t.clusters = s.clusters
  fens : ∀ k, k ≠ s.cur → t.fen k = s.fen k
  fen : ∃ l, t.fen s.cur = { s.fen s.cur with log := (s.fen s.cur).log ++ l } ∧ ∀ r ∈ l, r.kind = .rsu ∧ r.aux = rsuIdle

/-- A load from another owner completes at issue: its register's result is outstanding, and its request is on its way; nothing
else changes until the answer lands (R56, R281). -/
structure FarLoad (s : State) (u : VUnit) (o : Owner) (op : MemOp) (gs vs : List RegNo) (t : State) : Prop where
  same : Untouched s t
  past : Past u s.cx (here s t)
  out : ∃ x, (here s t).outs = s.cx.outs ++ [x] ∧ x.gs = gs ∧ x.vs = vs ∧ x.need = 1 ∧ x.got = [] ∧
    x.acq = (if isAcq u then some (s.widened u.scope) else none)
  sent : SentRequest s o op t

/-- A posted write to another owner completes at issue with one journal entry and one request (R251, R290). -/
structure FarStore (s : State) (u : VUnit) (o : Owner) (op : MemOp) (t : State) : Prop where
  same : Untouched s t
  past : Past u s.cx (here s t)
  outs : (here s t).outs = s.cx.outs
  journal : ∃ e, (mine s t).blk.ni.journal = s.me.blk.ni.journal ++ [e] ∧ e.ctx = s.me.blk.hold % 8 ∧ e.tsn = s.cx.tsn ∧ e.parts = 1 ∧
    s.me.blk.ni.journal.all (fun x => x.idx != e.idx) = true
  fence : (here s t).relNext = none
  sent : SentRequest s o op t

/-- A scalar load from another owner (R281, R284). -/
def LoadsFar (i : VUnit → Instr) (n : Nat) : Prop :=
  ∀ (s : State) (u : VUnit) (o : Owner) (pa : Nat) (st : Bool) (h : Option Nat), Free s u (u.a :: regsM u) [] → NotHeld s →
    s.find (readAcc n) (s.addrM u) = .at (.far o pa st) h → RoomFor s o → CanSend s o →
    Completes (i u) s (FarLoad s u o (.read [(pa, 0)] n) [u.a] [])

/-- A scalar store to another owner (R285, R290). -/
def StoresFar (i : VUnit → Instr) (n : Nat) : Prop :=
  ∀ (s : State) (u : VUnit) (o : Owner) (pa : Nat) (st : Bool) (h : Option Nat), Free s u (u.a :: regsM u) [] → NotHeld s →
    s.find (writeAcc n) (s.addrM u) = .at (.far o pa st) h → s.me.freeJournal.isSome = true → CanSend s o →
    Completes (i u) s (FarStore s u o (.write [(pa, leBytes n (s.cx.rg u.a).toNat)]))

/-- Requests to the owners of a unit's far elements are on their way, one to each, with what `op` makes of the owner's elements. -/
def SentToEach {β : Type} (s : State) (pe : List (Place × β)) (op : List (Nat × β) → MemOp) (jrn out : Option Nat) (t : State) : Prop :=
  (∀ o ∈ ownersOf pe, ∃ p ∈ t.net, p.src = .pool s.cur ∧ p.dst = o.home ∧ p.cls = 6 ∧ p.stage = .queued ∧
    ∃ r, p.body = .req r ∧ r.op = op (partOf o pe) ∧ r.owner = o.home ∧ r.jrn = jrn ∧ r.out = out ∧ r ∈ (mine s t).blk.ni.reqs) ∧
    ∀ p ∈ s.net, p ∈ t.net

/-- The core has a channel to each owner of a unit's far elements (R370). -/
def ChannelsTo {β : Type} (s : State) (pe : List (Place × β)) : Prop :=
  ∀ o ∈ ownersOf pe, ∃ k ∈ s.me.blk.ni.send, k.peer = ownerCode o ∧ k.cls = 6

/-- A vector load of which an element lies at another owner (R280, R281, R286 to R288): one outstanding result of the register, with the own
pool's bytes in it, and a request to each other owner. -/
def VectorLoadsFar (i : VUnit → Instr) (z : VUnit → Nat) (addr : VUnit → State → Nat → Word) (gs vs : VUnit → List RegNo) : Prop :=
  ∀ (s : State) (u : VUnit) (ps : List Place) (hits : List Nat), LanesFree s (gs u) (u.a :: vs u) → NotHeld s → LoadRel s u →
    s.findAll (readAcc (z u)) ((s.enEls u (z u)).map (addr u s)) = .all ps hits → s.me.outKind .dev < 8 → s.me.outKind .pool < 32 →
    let pe := ps.zip ((s.enEls u (z u)).map (fun e => z u * e))
    ownersOf pe ≠ [] → ChannelsTo s pe →
    Completes (i u) s (fun t => Untouched s t ∧ Past u s.cx (here s t) ∧
      ∃ x, (here s t).outs = s.cx.outs ++ [x] ∧ x.gs = [] ∧ x.vs = [u.a] ∧ x.need = (ownersOf pe).length ∧ x.got = s.me.gather (z u) (ownPart pe) ∧
        x.acq = (if isAcq u then some (s.widened u.scope) else none) ∧ SentToEach s pe (fun l => .read l (z u)) none (some x.id) t)

/-- A vector store of which an element lies at another owner (R289, R290): the own pool's elements are stored, and one journal entry stands for
the requests to the others. -/
def VectorStoresFar (i : VUnit → Instr) (z : VUnit → Nat) (addr : VUnit → State → Nat → Word) (gs vs : VUnit → List RegNo) : Prop :=
  ∀ (s : State) (u : VUnit) (ps : List Place) (hits : List Nat), LanesFree s (gs u) (u.a :: vs u) → NotHeld s → RelFree s (s.relScope u) →
    s.findAll (writeAcc (z u)) ((s.enEls u (z u)).map (addr u s)) = .all ps hits → s.me.freeJournal.isSome = true →
    let pe := ps.zip ((s.enEls u (z u)).map (fun e => leBytes (z u) (vecEl (8 * z u) (s.v u.a) e)))
    ownersOf pe ≠ [] → ChannelsTo s pe →
    Completes (i u) s (fun t => Past u s.cx (here s t) ∧ t.dev = s.dev ∧ t.host = s.host ∧ (∀ k, k ≠ s.cur → t.tile k = s.tile k) ∧
      (∀ r, (here s t).rg r = s.cx.rg r) ∧ (here s t).outs = s.cx.outs ∧ (here s t).relNext = none ∧
      (∀ x, Mem.read (mine s t).pool x = lastStore (ownPart pe) x (Mem.read s.me.pool x)) ∧
      ∃ j, (mine s t).blk.ni.journal = s.me.blk.ni.journal ++ [j] ∧ j.parts = (ownersOf pe).length ∧ j.ctx = s.me.blk.hold % 8 ∧ j.tsn = s.cx.tsn ∧
        SentToEach s pe MemOp.write (some j.id) none t)

/-- The context holds with pc at the unit until a result has landed, and with a switch marker until the others have that were outstanding
(R55, R385, R416). -/
def HoldsFor (s : State) (u : VUnit) (id : Nat) (t : State) : Prop :=
  (here s t).pc = s.cx.pc ∧
    (here s t).run = .waiting (.image id (2 * u.words) (if u.sw then (s.cx.outs.map (fun o => o.id)).filter (fun i => i != id) else []))

/-- A reduction on device memory (R294): open mode, posted. -/
def Reduces (i : VUnit → Instr) (op : RedOp) : Prop :=
  ∀ (s : State) (u : VUnit) (o : Owner) (pa : Nat) (st : Bool) (h : Option Nat), Free s u (u.a :: regsM u) [] → NotHeld s →
    s.me.blk.lr.ord = false → s.find { writeAcc (if u.k then 4 else 8) with spaces := 4 } (s.addrM u) = .at (.far o pa st) h →
    s.me.freeJournal.isSome = true → CanSend s o → Completes (i u) s (FarStore s u o (.reduce op u.k pa (s.cx.rg u.a)))

/-- Width in bytes of an atomic (R291). -/
def atomBytes (u : VUnit) : Nat := if u.k then 4 else 8

/-- An atomic on the own pool completes (R291 to R293): the register takes the old word, the memory `f`'s new one, or keeps the old
one where `f` gives none. -/
def AtomicOwn (i : VUnit → Instr) (cas : Bool) (signed : Bool) (f : Nat → Nat → Nat → Nat → Option Nat) : Prop :=
  ∀ (s : State) (u : VUnit), Free s u (u.a :: (if cas then [u.a + 1] else []) ++ regsM u) [] → NotHeld s → RelFree s (s.relScope u) →
    OwnPlace s (s.addrM u) (atomBytes u) true →
    let w := 8 * atomBytes u
    let off := fld (s.addrM u) 20 0
    let old := Mem.nat s.me.pool off (atomBytes u)
    let new := f w old ((s.cx.rg u.a).toNat % 2 ^ w) ((s.cx.rg (u.a + 1)).toNat % 2 ^ w)
    Completes (i u) s (StoreResult s u (match new with | some v => [(off, leBytes (atomBytes u) v)] | none => [])
      (fun c => { c with relNext := none }.wg u.a (if signed then BitVec.ofInt 64 (sInt w old) else BitVec.ofNat 64 old)))

/-- An atomic at another owner completes at issue with a journal entry, an outstanding result and one request (R293). -/
def AtomicFar (i : VUnit → Instr) (op : AtomOp) : Prop :=
  ∀ (s : State) (u : VUnit) (o : Owner) (pa : Nat) (st : Bool) (h : Option Nat),
    Free s u (u.a :: (if op = .cas then [u.a + 1] else []) ++ regsM u) [] → NotHeld s →
    s.find (atomAcc (atomBytes u)) (s.addrM u) = .at (.far o pa st) h → s.me.outKind .dev < 8 → s.me.freeJournal.isSome = true → CanSend s o →
    Completes (i u) s (fun t =>
      FarLoad s u o (.atomic op u.k pa (s.cx.rg u.a) (if op = .cas then s.cx.rg (u.a + 1) else 0)) [u.a] [] t ∧
      ∃ e, (mine s t).blk.ni.journal = s.me.blk.ni.journal ++ [e] ∧ e.parts = 1 ∧ e.out = some s.nextId)

/-- An element of `n` bytes at an address of the own pool that breaks a rule raises the trap of the first rule it breaks (R279). -/
def PoolFaults (s : State) (a : Word) (n : Nat) (write : Bool) (i : Instr) : Prop :=
  s.classify a n = some (0, s.cur) →
    let off := fld a 20 0
    let fails := fun c => Completes i s (Trapped s c a (s.me.blk.lr.trv.setWidth 64))
    (a.toNat % n ≠ 0 → fails 0x05) ∧
    (a.toNat % n = 0 → off < s.me.blk.lr.xb.toNat → fails 0x08) ∧
    (a.toNat % n = 0 → s.me.blk.lr.xb.toNat ≤ off → s.me.abase < off + n → fails 0x09) ∧
    (a.toNat % n = 0 → s.me.blk.lr.xb.toNat ≤ off → off + n ≤ s.me.abase → s.me.lockHit write off n = true → fails 0x0A)

/-- A scalar access of `n` bytes to the own pool. -/
def OwnFaults (i : VUnit → Instr) (n : Nat) (write : Bool) : Prop :=
  ∀ (s : State) (u : VUnit), CanTrap s → Free s u (u.a :: regsM u) [] → NotHeld s → PoolFaults s (s.addrM u) n write (i u)

/-- An atomic on the own pool. -/
def AtomFaults (i : VUnit → Instr) (cas : Bool) : Prop :=
  ∀ (s : State) (u : VUnit), CanTrap s → Free s u (u.a :: (if cas then [u.a + 1] else []) ++ regsM u) [] → NotHeld s →
    PoolFaults s (s.addrM u) (atomBytes u) true (i u)

/-- A vector access raises the trap of its lowest element that breaks a rule (R280). -/
def VectorFaults (i : VUnit → Instr) (z : VUnit → Nat) (addr : VUnit → State → Nat → Word) (gs vs : VUnit → List RegNo) (write : Bool) : Prop :=
  ∀ (s : State) (u : VUnit) (e : Nat), CanTrap s → LanesFree s (gs u) (u.a :: vs u) → NotHeld s → e ∈ s.enEls u (z u) →
    (∀ k ∈ s.enEls u (z u), k < e → OwnPlace s (addr u s k) (z u) write) → PoolFaults s (addr u s e) (z u) write (i u)

/-! ### Shapes of page 2 (R203 to R223) -/

/-- The array queue of the tile takes a command now (R204, R205, R221): its request stands, a place is free, and no exchange that
waits names one of its accumulators. -/
structure CanCommand (s : State) (c : ACmd) : Prop where
  req : s.me.blk.arr.req = true
  room : s.me.blk.arr.queue.length < 16
  exchange : s.me.blk.arr.behindExchange c = false

/-- The context in hand owns an accumulator (R142). -/
def OwnsAcc (s : State) (k : Nat) : Prop :=
  (s.me.blk.arr.acc k).vld = true ∧ (s.me.blk.arr.acc k).own.toNat = s.me.blk.hold % 8

/-- A command was accepted (R204, R141): it stands last in the queue with the next sequence number, its destination is in flight and
written; no register, pool byte or other accumulator has changed. -/
structure Accepted (s : State) (u : VUnit) (c : ACmd) (t : State) : Prop where
  core : OnlyCore s t
  past : Past u s.cx (here s t)
  here : here s t = { s.cx with pc := (here s t).pc, run := (here s t).run }
  others : ∀ k, k % 8 ≠ s.me.blk.hold % 8 → (mine s t).ctx k = s.me.ctx k
  pool : (mine s t).pool = s.me.pool ∧ (mine s t).vol = s.me.vol ∧ (mine s t).blk.lr = s.me.blk.lr ∧ (mine s t).blk.ni = s.me.blk.ni
  seq : (mine s t).blk.arr.sqa = s.me.blk.arr.sqa + 1 ∧ (mine s t).blk.arr.sqd = s.me.blk.arr.sqd
  queue : ∃ e, (mine s t).blk.arr.queue = s.me.blk.arr.queue ++ [e] ∧ e.cmd = c ∧ e.seq = s.me.blk.arr.sqa + 1 ∧
    e.ctx = s.me.blk.hold ∧ e.tsn = s.cx.tsn ∧ e.started = false
  dest : ∀ d, d < 8 → c.dest = some d → ((mine s t).blk.arr.acc d).ifl = true ∧ ((mine s t).blk.arr.acc d).drt = true
  accs : ∀ k, k < 8 → c.dest ≠ some k → (mine s t).blk.arr.acc k = s.me.blk.arr.acc k
  slots : (mine s t).blk.arr.slots = s.me.blk.arr.slots ∧ (mine s t).blk.arr.mx = s.me.blk.arr.mx

/-- An image of `n` bytes at an address (R212): in the own pool, on a line, where it may be reached. -/
structure ImageAt (s : State) (a : Word) (n : Nat) (write : Bool) : Prop where
  own : s.classify a 1 = some (0, s.cur)
  align : a.toNat % 128 = 0
  ok : OwnOk s (fld a 20 0) n write

/-- A range lock of a holder stands on `n` bytes from an offset (R364). -/
def LockedBy (t : Tile) (wl : Bool) (src off n : Nat) : Prop :=
  ∃ l, some l ∈ t.blk.en.locks.toList ∧ l.wl = wl ∧ l.src = BitVec.ofNat 6 src ∧ l.first = BitVec.ofNat 16 (off / 32) ∧
    l.last = BitVec.ofNat 16 ((off + n - 1) / 32)

/-- A tile neither logs a reading nor replays one (R438, R440). -/
def Unlogged (s : State) : Prop := s.logs s.cur = false ∧ s.me.vol.replay = none

/-! ### Shapes of page 4 (R323 to R353) -/

/-- A numbered packet of classes 1 to 5 was sent (R306, R328, R370, R397): it waits for injection, its copy stands in the
retransmission buffer, behind the marker of a channel that closes for it, its bytes count in every domain of which the tile is an active
member; no memory and no register has changed. -/
structure PacketSent (s : State) (u : VUnit) (dst cls bytes : Nat) (rel : Option Nat) (body : Nat → Body) (t : State) : Prop where
  same : Untouched s t
  past : Past u s.cx (here s t)
  outs : (here s t).outs = s.cx.outs
  fence : (here s t).relNext = none
  packet : ∃ p ∈ t.net, p.src = .pool s.cur ∧ p.dst = .pool dst ∧ p.cls = cls ∧ p.bytes = bytes ∧ p.rel = rel ∧ p.body = body p.seq ∧
    p.stage = .queued ∧ p.mask = s.me.blk.sy.mem ∧ ∃ l, (mine s t).blk.ni.rtx = s.me.blk.ni.rtx ++ l ++ [p] ∧ l.length ≤ 1 ∧
      (∀ q ∈ l, q.body = .close q.cls) ∧ (s.me.blk.ni.send.length < 128 → l = [])
  others : ∀ p ∈ s.net, p ∈ t.net
  pending : ∀ n : Fin 16, (mine s t).blk.sy.pbc.get n = s.me.blk.sy.pbc.get n + (if s.me.blk.sy.mem.getLsbD n.val then BitVec.ofNat 40 bytes else 0)

/-- A message unit that may send to a tile: its checks pass, and the retransmission buffer and a channel have a place. -/
structure MaySend (s : State) (w : Word) (dst cls : Nat) : Prop where
  open_ : s.me.blk.lr.ord = false
  dest : s.dest w = some dst
  room : s.rtxFull = false
  number : (s.number s.cur dst cls).isSome = true

/-- The message that a unit sends (R308, R309, R327). -/
def message (s : State) (cls tcx : Nat) (spawn : Bool) (payload : List Byte) (seq : Nat) : Body :=
  .msg { cls := cls, long := payload.length != 32, payload := payload, src := s.cur, tcx := tcx, spawn := spawn, anum := 0, seq := seq, ctx := s.me.blk.hold, tsn := s.cx.tsn }

/-- A message unit (R326, R327, R332): the two traps in their order, the wait for a place, and the message. -/
def SendsMessage (i : VUnit → Instr) (gs vs : VUnit → List RegNo) (cls tcx : VUnit → Nat) (spawn : Bool) (rel : State → VUnit → Option Nat)
    (payload : State → VUnit → List Byte) : Prop :=
  ∀ (s : State) (u : VUnit), Free s u (gs u) (vs u) →
    (CanTrap s → s.me.blk.lr.ord = true → Completes (i u) s (Trapped s 0x0D (s.cx.rg u.b) (s.me.blk.lr.trv.setWidth 64))) ∧
    (CanTrap s → s.me.blk.lr.ord = false → s.dest (s.cx.rg u.b) = none →
      Completes (i u) s (Trapped s 0x06 (s.cx.rg u.b) (s.me.blk.lr.trv.setWidth 64))) ∧
    (s.me.blk.lr.ord = false → (s.dest (s.cx.rg u.b)).isSome = true → (s.me.vol.replay = none → (s.rtxFull = true ↔ 32 ≤ s.me.blk.ni.rtx.length)) ∧
      (s.rtxFull = true → Completes (i u) s (Waits s s.rtxWait))) ∧
    ∀ dst, MaySend s (s.cx.rg u.b) dst (cls u) → Completes (i u) s (fun t =>
      PacketSent s u dst (cls u) (payload s u).length (rel s u) (message s (cls u) (tcx u) spawn (payload s u)) t ∧
      (mine s t).blk.ni.spc = s.me.blk.ni.spc + (if spawn then 1 else 0))

/-- A message was taken from where it waits (R310): it leaves the receive queue, or its divert slot's FUL bit is clear. -/
def Taken (a b : Tile) : Held → Prop
  | .queue i => b.vol.rq = a.vol.rq.eraseIdx i ∧ b.pool = a.pool
  | .slot c k => b.vol.rq = a.vol.rq ∧ (b.slotHdr c k).getLsbD 63 = false ∧
      ∀ x, x ≠ a.slotAddr c k + 7 → Mem.read b.pool x = Mem.read a.pool x

/-- A new outstanding result of the context in hand. -/
def NewOut (s t : State) (o : Outs) : Prop := (here s t).outs = s.cx.outs ++ [o]

/-- A receive unit in its register form (R329): with no message it waits; else the oldest message that it may take leaves its
place, and the result is outstanding. -/
def Receives (i : VUnit → Instr) (gs vs : VUnit → List RegNo) (how : VUnit → Word → List Byte → Land) : Prop :=
  ∀ (s : State) (u : VUnit), Free s u (u.c :: gs u) (vs u) →
    (s.me.eligible s.me.blk.hold (recvClass u) = none → Completes (i u) s (Waits s (.message (recvClass u)))) ∧
    ∀ h, s.me.eligible s.me.blk.hold (recvClass u) = some h → Completes (i u) s (fun t => OnlyCore s { t with nextId := s.nextId } ∧
      Past u s.cx (here s t) ∧ (here s t).g = s.cx.g ∧ Taken s.me (mine s t) h ∧
      ∃ o, NewOut s t o ∧ o.kind = .recv ∧ o.need = 0 ∧ o.gs = gs u ++ (if u.c = 0 then [] else [u.c]) ∧ o.vs = vs u ∧
        o.how = how u (s.me.peek s.fresh s.me.vol.rq h).1 (s.me.peek s.fresh s.me.vol.rq h).2)

/-- A receive unit in its pool form (R329): 8 bytes of header, 24 zero bytes and the payload are written, under a write lock of
holder 38 that clears when the header lands in g(c). -/
def ReceivesToPool (i : VUnit → Instr) (size most : Nat) : Prop :=
  ∀ (s : State) (u : VUnit), Free s u [u.b, u.c] [] → NotHeld s → ∀ (off : Nat) (j : Option Nat),
    s.find { size := size, align := 32, rd := false, wr := true, lock := some true, spaces := 0x1, ord := false } (s.cx.rg u.b) = .at (.own off) j →
    (s.me.eligible s.me.blk.hold (recvClass u) = none → Completes (i u) s (Waits s (.message (recvClass u)))) ∧
    ∀ h, s.me.eligible s.me.blk.hold (recvClass u) = some h → s.me.freeLock.isSome = true → RelFree s s.cx.relNext →
      let m := s.me.peek s.fresh s.me.vol.rq h
      let bs := leBytes 8 m.1.toNat ++ List.replicate 24 0 ++ m.2.take most
      Completes (i u) s (fun t => OnlyCore s { t with nextId := s.nextId } ∧ Past u s.cx (here s t) ∧ (here s t).g = s.cx.g ∧
        (∀ x, Mem.read (mine s t).pool x =
          if off ≤ x ∧ x < off + bs.length then bs.getD (x - off) 0 else Mem.read (s.me.without h).pool x) ∧
        (mine s t).vol.rq = (s.me.without h).vol.rq ∧
        (∃ l, some l ∈ (mine s t).blk.en.locks.toList ∧ l.wl = true ∧ l.src = 38 ∧ l.first = BitVec.ofNat 16 (off / 32) ∧
          l.last = BitVec.ofNat 16 ((off + size - 1) / 32)) ∧
        ∃ o, NewOut s t o ∧ o.kind = .copy ∧ o.need = 0 ∧ o.how = .fixed [(u.c, m.1)] none)

/-- A copy was posted (R325, R335, R263): it stands last in the copy queue, its token is outstanding, its own-pool rows are
locked; no pool byte and no register has changed. -/
structure CopyPosted (s : State) (u : VUnit) (ovl : Bool) (d c : Side) (rows len : Nat) (t : State) : Prop where
  core : OnlyCore s { t with nextId := s.nextId }
  past : Past u s.cx (here s t)
  same : (mine s t).pool = s.me.pool ∧ (here s t).g = s.cx.g ∧ (here s t).relNext = none
  op : ∃ k, (mine s t).blk.en.copies = s.me.blk.en.copies ++ [k] ∧ k.ctx = s.me.blk.hold ∧ k.tok = u.a ∧ k.dst = d.base ∧ k.src = c.base ∧
    k.rows = rows ∧ k.len = len ∧ k.dstep = d.step ∧ k.sstep = c.step ∧ k.ovl = ovl ∧ k.lines = 0 ∧ k.st = 0 ∧ k.idx < 16 ∧
    s.me.blk.en.copies.all (fun j => j.idx != k.idx) = true
  token : ∃ o, NewOut s t o ∧ o.gs = [u.a] ∧ o.vs = [] ∧ o.kind = .copy ∧ o.need = 1
  dlock : ∀ o n, hull len (s.ownRows d) = some (o, n) → ∃ i, i < 16 ∧ LockedBy (mine s t) true i o n
  slock : ∀ o n, hull len (s.ownRows c) = some (o, n) → ∃ i, i < 16 ∧ LockedBy (mine s t) false i o n

/-- A copy unit (R335 to R339): the trap of the first check it fails, the wait for a place, or the copy in the queue. -/
def Copies (i : VUnit → Instr) (ovl : Bool) (gs : VUnit → List RegNo) (d c : State → VUnit → Side) (rows len : State → VUnit → Nat)
    (lens : State → VUnit → List (Bool × Word)) (mults : State → VUnit → List Word) : Prop :=
  ∀ (s : State) (u : VUnit), Free s u (gs u) [] → NotHeld s →
    (∀ k a, CanTrap s → s.copyCheck ovl (d s u) (c s u) (len s u) (lens s u) (mults s u) = some (k, a) →
      Completes (i u) s (Trapped s k a (s.me.blk.lr.trv.setWidth 64))) ∧
    (s.copyCheck ovl (d s u) (c s u) (len s u) (lens s u) (mults s u) = none → 16 ≤ s.me.blk.en.copies.length →
      Completes (i u) s (Waits s .copyQueue)) ∧
    (s.copyCheck ovl (d s u) (c s u) (len s u) (lens s u) (mults s u) = none → s.me.blk.en.copies.length < 16 → 2 ≤ s.me.freeLocks →
      Completes (i u) s (CopyPosted s u ovl (d s u) (c s u) (rows s u) (len s u)))

/-! ### Shapes of pages 5 and 6 -/

/-- The core in hand is the TSC of a cluster, in supervisor mode (R373, R96). -/
structure OnTsc (s : State) : Prop where
  low : 30720 ≤ s.cur
  high : s.cur < 32640
  mode : s.cx.supervisor = true

/-! ### Shapes of the module's events -/

/-- A function's number lies in its register (R40). -/
def FnOk : Fn → Prop
  | .field n => n < 84
  | .rim n | .hbm n => n < 24
  | .belvis n => n < 16
  | _ => True

/-- The head packet of the queue whose turn runs is of a type (R317, R461): `e` are its words. -/
structure AtPacket (s : State) (q typ : Nat) (e : Nat → Word) : Prop where
  turn : s.cp.turn = some q
  live : s.cpLive = true
  free : s.frozen q = false
  head : ∃ ws, s.headPacket q = .packet ws ∧ e = fun i => ws.getD i 0
  kind : fld (e 0) 63 56 = typ

/-- The queue has consumed `n` packets, and waits for nothing. -/
def Consumed (s t : State) (q n : Nat) : Prop :=
  (t.queue q).head = (s.queue q).head + BitVec.ofNat 32 n ∧ (t.queue q).wait = none

/-- A packet that has come in order: it arrived at a core's NI, which admits it, and it is the next of its channel, with a place in
the receive table (R261, R307, R370). -/
structure InOrder (s : State) (core : Nat) (p : Pkt) : Prop where
  came : s.arrival (.pool core) = some p
  admitted : s.admits core = true
  next : turnOf (recvNext (s.tile core).blk.ni.recv (ownerCode p.src) p.cls) p.seq = .now
  room : (recvStep (s.tile core).blk.ni.recv (ownerCode p.src) p.cls).isSome = true

/-- The packet has gone from the network, and its channel expects the next number. -/
structure TakenIn (s t : State) (core : Nat) (p : Pkt) : Prop where
  gone : p ∉ t.net
  recv : some (t.tile core).blk.ni.recv = recvStep (s.tile core).blk.ni.recv (ownerCode p.src) p.cls

/-- A packet of class 6 with a body is on its way to an owner. -/
def Sent (t : State) (dst : Owner) (b : Body) : Prop := ∃ p ∈ t.net, p.dst = dst ∧ p.body = b ∧ p.cls = 6 ∧ p.stage = .queued

/-- A core whose arrivals are neither logged nor replayed. -/
def Plain (s : State) (core : Nat) : Prop := s.logs core = false ∧ (s.tile core).vol.replay = none

/-- An answer that has come to a core: its packet, and the request that it answers (R250, R370). -/
structure Answered (s : State) (core : Nat) (p : Pkt) (r : Reply) (q : Req) : Prop where
  came : s.arrival (.pool core) = some p
  body : p.body = .reply r
  admitted : s.admits core = true
  request : s.reqOf core p.src r = some q

/-- A request that has come in order to an owner off the wafer (R250, R371). -/
structure AtOwner (s : State) (o : Owner) (p : Pkt) (r : Req) : Prop where
  came : s.arrival o = some p
  body : p.body = .req r
  next : turnOf (s.dedupOf o r.src).done r.seq = .now

/-- A request that has come in order to a home slice, which serves it now: it passes no bank queue, and none of its source's requests at
the slice is under way (R250, R313). -/
structure AtSlice (s : State) (k : Nat) (p : Pkt) (r : Req) : Prop where
  at_ : AtOwner s (.slice k) p r
  plain : r.heron = false
  free : s.sliceHeld k r.src none true = false

/-- All the bytes lie in one granule (R247). -/
def OneGranule (els : List (Nat × List Byte)) : Prop := ∃ g, ∀ e ∈ els, e.1 / 64 = g ∧ e.1 % 64 + e.2.length ≤ 64

/-- A memory with some bytes stored. -/
def Stored (m : Mem) (a : Nat) (bs : List Byte) (x : Nat) : Byte := if a ≤ x ∧ x < a + bs.length then bs.getD (x - a) 0 else Mem.read m x

/-- A core has answered the sender of an arrival: at once, or, where it logs its arrivals, by a record that holds the answer until
it is durable (R328, R439). -/
def Acked (s t : State) (core : Nat) (p : Pkt) (b : Body) : Prop :=
  (s.logs core = false → Sent t p.src b) ∧
    (s.logs core = true → ∃ r ∈ (t.fen core).log, r.answer = some b ∧ r.pkt = some p ∧ r.durable = false)

/-- A refusal of an operation of a context has joined its pending list, or, with four there or its task gone, is counted (R427). -/
def RefusalTaken (x y : Tile) (c : Nat) (tsn : BitVec 16) (cause : BitVec 8) (tra : Word) (jix : Option (BitVec 6)) : Prop :=
  if (x.ctx c).tsn = tsn ∧ (x.ctx c).apnd.length < 4
  then (y.ctx c).apnd = (x.ctx c).apnd ++ [{ cause := cause, tra := tra, jix := jix }] ∧ y.blk.ni.lrc = x.blk.ni.lrc
  else (y.ctx c).apnd = (x.ctx c).apnd ∧ y.blk.ni.lrc = x.blk.ni.lrc + 1

/-- A message has gone where R308 sends it: into its queue or a divert slot, with the next arrival number, or nowhere. -/
def MessagePlaced (x y : Tile) (m : Msg) : Goes → Prop
  | .queue => y.blk.ni.anum = x.blk.ni.anum + 1 ∧ y.pool = x.pool ∧
      (if m.spawn then y.vol.taskQ = x.vol.taskQ ++ [{ m with anum := x.blk.ni.anum }] ∧ y.vol.rq = x.vol.rq
        else y.vol.rq = x.vol.rq ++ [{ m with anum := x.blk.ni.anum }] ∧ y.vol.taskQ = x.vol.taskQ)
  | .slot c k => y.blk.ni.anum = x.blk.ni.anum + 1 ∧ y.vol.rq = x.vol.rq ∧ y.vol.taskQ = x.vol.taskQ ∧
      ∀ a, Mem.read y.pool a = Stored x.pool (x.slotAddr c k)
        (leBytes 8 ({ m with anum := x.blk.ni.anum } : Msg).hdr.toNat ++ List.replicate 24 0 ++ m.payload) a
  | .refuse dov => y.blk.ni.anum = x.blk.ni.anum ∧ y.pool = x.pool ∧ y.vol.rq = x.vol.rq ∧ y.vol.taskQ = x.vol.taskQ ∧
      y.blk.ni.dov = (x.blk.ni.dov || dov)

/-- An owner off the wafer has performed a request and answered it: the packet has gone, the next number of its source is expected,
and the reply is on its way (R250, R371). -/
structure OwnerAnswered (s t : State) (o : Owner) (p : Pkt) (r : Req) (v : Served) (pop : Option (Word × Vec)) : Prop where
  gone : p ∉ t.net
  done : (t.dedupOf o r.src).done = (r.seq + 1) % 2 ^ 24
  sent : Sent t p.src (.reply (r.reply v pop))
  tiles : t.tiles = s.tiles

/-- A copy of a core, which goes on with its next line, and the places of the line's two sides: the copy runs (R335, R338). -/
structure LineReady (s : State) (c : CopyOp) (p q : LinePlace) : Prop where
  op : s.copyOf s.arg.n s.arg.i = some c
  runs : s.copyRuns s.arg.n c = true
  src : s.linePlace s.arg.n false (c.srcAt c.lines) = p
  dst : s.linePlace s.arg.n true (c.dstAt c.lines) = q
  own : s.arg.b = false

/-- The answer to the request of a copy's line has come to its core (R335). -/
structure LineAnswered (s : State) (p : Pkt) (r : Reply) (q : Req) (c : CopyOp) : Prop where
  comes : s.arg.b = true
  answer : Answered s s.arg.n p r q
  line : q.line = some c.idx
  op : s.copyOf s.arg.n c.idx = some c
  runs : c.st = 0

/-- The copy has moved one line more. -/
def LineMoved (s t : State) (c : CopyOp) : Prop := t.copyOf s.arg.n c.idx = some { c with lines := c.lines + 1, stage := .idle }

/-- The copy has sent the request of its line to an owner (R335), and waits for the answer. -/
def LineSent (s t : State) (c : CopyOp) (o : Owner) (op : MemOp) (stage : Nat → LineStage) : Prop :=
  ∃ r ∈ (t.tile s.arg.n).blk.ni.reqs, r.owner = o.home ∧ r.op = op ∧ r.line = some c.idx ∧ Sent t o.home (.req r) ∧
    t.copyOf s.arg.n c.idx = some { c with stage := stage r.id }

/-- A channel of a core has room for one more request to an owner (R370). -/
def ChannelFor (s : State) (core : Nat) (o : Owner) : Prop := (s.number core (ownerCode o) 6).isSome = true

/-- An operation's token has landed: its result is no longer outstanding, its locks are gone, and its register holds the word. -/
structure TokenLanded (s t : State) (core c id src : Nat) (d : RegNo) (w : Word) : Prop where
  outs : ((t.tile core).ctx c).outs = ((s.tile core).ctx c).outs.filter (fun o => o.id != id)
  regs : ∀ r, ((t.tile core).ctx c).rg r = if r = d ∧ r ≠ 0 then w else ((s.tile core).ctx c).rg r
  locks : ∀ l, some l ∈ (t.tile core).blk.en.locks.toList → l.src.toNat ≠ src

/-- The token of an operation may land: its result stands, and its context takes it. -/
def TokenWaits (s : State) (core c id : Nat) (d : RegNo) : Prop :=
  s.admits core = true ∧
    ∃ o, ((s.tile core).ctx c).outs.find? (fun o => o.id == id) = some o ∧ o.dropped.contains d = false ∧ ((s.tile core).ctx c).discards o = false

/-- Element n of the destination after a command of the array (R217, R218). -/
def cmdEl (x : Tile) (e : ACmdEntry) (d n : Nat) : Nat :=
  match e.cmd with
  | .mma _ _ _ l16 keep => mmaEl keep (x.accEl d n) (mmaSum l16 e.wt.fmt.toNat e.held.toArray e.wt.img.toArray (n / 512) (n % 512))
  | .macc _ k => add32 0 (x.accEl d n) (x.accEl k n)
  | .mscl _ f => mul32 (x.accEl d n) f.toNat
  | _ => 0

/-- A command of the array has retired with its result (R141, R219): the queue has moved on, the destination holds the result, and
no other byte of the pool has changed. -/
structure CommandDone (x y : Tile) (e : ACmdEntry) : Prop where
  seq : y.blk.arr.sqd = e.seq
  queue : y.blk.arr.queue = x.blk.arr.queue.filter (fun k => k.seq != e.seq)
  result : ∀ d, e.cmd.dest = some d → ∀ n, n < 16384 → y.accEl d n = cmdEl x e d n % 2 ^ 32
  others : ∀ d, e.cmd.dest = some d → ∀ a, (a < x.accAddr d ∨ x.accAddr d + 65536 ≤ a) → Mem.read y.pool a = Mem.read x.pool a
  none : e.cmd.dest = none → y.pool = x.pool
  contexts : y.blk.cx = x.blk.cx

/-- A completion of a domain has been taken at a tile (R395, R396): its arrival bit is clear and its epoch bit turned; with domain 0
the pending masks are active, and, where the step has advanced, the step and the loss scale are the step unit's; a context that waited in WTB goes on with 0. -/
structure CompletedAt (x y : Tile) (n : Nat) (stepped : Bool) (gst : Word) (lscl : BitVec 32) : Prop where
  pool : y.pool = x.pool
  arr : y.blk.sy.arr.getLsbD n = false
  epo : y.blk.sy.epo = x.blk.sy.epo ^^^ (1 <<< n)
  other : n ≠ 0 → y.blk.lr = x.blk.lr ∧ y.blk.sy.mem = x.blk.sy.mem ∧ y.blk.sy.drn = x.blk.sy.drn
  zero : n = 0 → y.blk.lr = (if stepped then { x.blk.lr with steps := gst, lscl := lscl } else x.blk.lr) ∧ y.blk.sy.mem = x.blk.sy.memP ∧ y.blk.sy.drn = x.blk.sy.drnP ∧
    y.blk.sy.xph = (x.blk.sy.xph != x.blk.lr.ord)
  waits : ∀ c a len, (x.ctx c).run = .waiting (.wtb n a len) →
    y.ctx c = { (x.ctx c).wg a 0 with pc := (x.ctx c).pc + BitVec.ofNat 64 len, run := .ready }

/-- The positions of a cluster may exchange (R221, R225, R228): none is stopped, failed, or past a switch time, and the boundaries after the
last exchange have ended. -/
structure MayExchange (s : State) (k : Nat) : Prop where
  idle : (s.cluster k).running = none ∧ (s.cluster k).post = false
  tiles : ∀ p, p < 16 → s.mayExchange (tileAt k p) = true

/-- No position of a cluster replays. -/
def NoReplay (s : State) (k : Nat) : Prop := ∀ p, p < 16 → (s.tile (tileAt k p)).vol.replay = none

/-- A tile at which a boundary can start (R400, R421, R435). -/
structure CanStart (s : State) (core : Nat) : Prop where
  tile : core < 30720
  gang : (s.tile core).blk.lr.gang.isSome = true
  fen : (s.fen core).unprotected = false
  phase : (s.tile core).vol.phase = .none
  alive : s.alive core = true

/-- The senders of records that were not durable have their answers. -/
def RecsAnswered (t : State) (l : List LogRec) : Prop :=
  ∀ r ∈ l, r.durable = false → ∀ b p, r.answer = some b → r.pkt = some p → (∀ i, b ≠ .log i) → Sent t p.src b

/-- A copy of a packet waits at its source. -/
def WaitsAgain (t : State) (src dst : Owner) (cls seq : Nat) : Prop :=
  ∃ q ∈ t.net, q.src = src ∧ q.dst = dst ∧ q.cls = cls ∧ q.seq = seq ∧ (q.stage = .queued ∨ q.stage = .held)

/-- A class 0 packet of the command processor is on its way to a tile (R302). -/
def Told (t : State) (n : Nat) (m : SysMsg) : Prop :=
  ∃ p ∈ t.net, p.src = .cpx ∧ p.dst = .pool n ∧ p.cls = 0 ∧ p.body = .sys m ∧ p.stage = .queued

/-- A class 0 packet of the command processor has come to a tile. -/
structure TellsTile (s : State) (n : Nat) (p : Pkt) (m : SysMsg) : Prop where
  came : s.arrival (.pool n) = some p
  body : p.body = .sys m

/-- A tile stands as it was but for its volatile part, and the packet has gone. -/
structure TookTold (s t : State) (n : Nat) (p : Pkt) : Prop where
  gone : p ∉ t.net
  pool : (t.tile n).pool = (s.tile n).pool
  cores : ∀ k, k ≠ n → t.tile k = s.tile k

/-- The save engine may work on a tile of a launch (R242, R447): the launch is being switched, the tile stands still, nothing of it is under
way, and its area is known. -/
structure CanSave (s : State) (g : Nat) (k : Gang) (a : Nat) : Prop where
  tile : s.arg.n < 30720
  rank : s.arg.n ∈ k.tiles ∧ k.area (s.tile s.arg.n).blk.lr.rank = some a
  launch : (s.tile s.arg.n).blk.lr.gang = some g ∧ s.gang? g = some k ∧ k.state = .switching
  stopped : (s.tile s.arg.n).vol.switched = true ∧ (s.tile s.arg.n).vol.saved = false ∧ (s.tile s.arg.n).vol.saveFault = false
  quiet : (s.tile s.arg.n).vol.phase = .none ∧ s.drained s.arg.n = true ∧ s.banked k.tiles = false
  mesh : s.net.any (fun p => p.ofTiles k.tiles && p.cls != 7) = false

end Sys2Proof.Claims
end

