-- ==== Sys2Proof/Certificates/Slice0/Obligations.lean ====
section
/-! DEFINITION. The statements for the provers. Each formalises the rules of spec/ that its docstring names. -/

open Sys2Proof Sys2Proof.Machine Sys2Proof.Claims

/-! ### Decoding and the step -/

/-- R81 to R98: every well-formed unit, with every operand at every value that the encoding admits, decodes from its own words to
itself. -/
def Obligations.DecodeOfEncode : Prop :=
  ∀ i : Instr, WellFormed i = true → (instrCode i).isSome = true → decode (bytesOfWords (encode i)) = i

/-- R81 to R98: a few words written out from the encoding tables decode to the units they stand for. -/
def Obligations.WordsOfEveryPage : Prop :=
  (decodeTableWord 32 0xF4070D4C = some (.add { xp := false, xq := none, xr := true, nxi := 0, xi := 0, a := 5, b := 3, c := 7, k := false, sw := false })) ∧
  (decodeTableWord 16 0xC000 = some (.done { xp := false, xq := none, xr := false, nxi := 0, xi := 0, a := 0, b := 0, c := 0, k := false, sw := false })) ∧
  (decodeTableWord 32 0xF8011004 = some (.vadd { xp := true, xq := none, xr := false, nxi := 0, xi := 0, a := 0, b := 1, c := 0, k := false, sw := false })) ∧
  (decodeTableWord 32 0xF8021010 = some (.mma { xp := true, xq := none, xr := false, nxi := 0, xi := 0, a := 0, b := 4, c := 0, k := false, sw := false })) ∧
  (decodeTableWord 32 0xF806201C = some (.step { xp := true, xq := none, xr := false, nxi := 0, xi := 0, a := 0, b := 7, c := 0, k := false, sw := false })) ∧
  (decodeTableWord 16 0xF000 = none)

/-- R96, R97: the unit at pc is the one whose words stand there, where they lie below XB and the tile has the accumulators that
it names. -/
def Obligations.FetchReadsTheUnitAtPc : Prop :=
  ∀ (s : State) (i : Instr) (page op6 : Nat) (u : VUnit), instrCode i = some (page, op6, u) → WellFormed i = true →
    (∀ r, (opEntry page op6).row u = some r → r.check s.me.nacc u = none) → setsReadOnly s.cx.supervisor i = false →
    s.cx.pc.toNat % 2 = 0 → s.cx.pc.toNat + 2 * u.words ≤ s.me.blk.lr.xb.toNat →
    Mem.bytes s.me.pool s.cx.pc.toNat (2 * u.words) = bytesOfWords (encode i) → s.fetch = i

/-- Entry 18: where no core's time has come, on the core whose turn it is, where nothing is due, the context that issues next is at no
boundary, its fetch meets no lock, and no parity error stands, a step is the meaning of the unit at its pc, and then device time passes. R67,
R72, R148, R392, R400: what is due comes instead; what is due by the time comes first, at whichever core. R229: a tile of which the turn reads
a struck word stops instead. -/
def Obligations.StepRunsTheDecodedUnit : Prop :=
  (∀ (s x : State) (core c : Nat), TurnOf s core x → Sound s → s.overdue = none → x.due core = none → x.mayIssue core = true → x.issuer core = some c →
    (x.focus core c).boundary = none →
    (x.focus core c).me.fetchLocked (x.focus core c).cx.pc (fetchLen (x.focus core c).cx.pc (x.focus core c).fetch) = false →
    (∀ t, exec (x.focus core c).fetch (x.focus core c) = .next t → step s = .next (Within s t).tick) ∧
      (∀ r, exec (x.focus core c).fetch (x.focus core c) = .fault r → step s = .fault r)) ∧
  (∀ (s x t : State) (core : Nat), TurnOf s core x → Sound s → s.overdue = none → x.due core = some t → step s = .next (Within s t).tick) ∧
  (∀ s t : State, Sound s → s.overdue = some t → step s = .next (Within s t).tick) ∧
  (∀ (s : State) (core : Nat), s.parityHit State.turn = some core → ∃ t, step s = .next t ∧ (t.tile core).vol.failed = true ∧
    ∀ k, k ≠ core → t.tile k = s.tile k)

/-- Entry 18: where no core's time has come, an event at the head of the environment's choices happens, with its operands, and then device
time passes. -/
def Obligations.StepRunsTheChosenEvent : Prop :=
  ∀ (s t : State) (i : Instr) (a : EvArg) (r : List Choice), s.sched = .event i a :: r → Instr.isEvent i = true → Sound s → s.overdue = none →
    exec i { s with sched := r, arg := a } = .next t → step s = .next (Within s t).tick

/-- No gap: whatever the state and whatever the environment chooses, no step is refused for want of a meaning, and no event stops with a
fault. -/
def Obligations.NoStepIsRefused : Prop :=
  (∀ (s : State) (r : Refusal), step s ≠ .refused r) ∧
    (∀ (i : Instr) (s : State), Instr.isEvent i = true → ∃ t, exec i s = .next t)

/-! ### Reset -/

/-- R139, R141, R145, R147, R245, R389: what module reset leaves in a tile, a context and the clock. -/
def Obligations.ResetValues : Prop :=
  ∀ (k c : Nat) (r : RegNo), k < 30720 →
    let t := State.reset.tile k
    let x := t.ctx c
    x.rg r = 0 ∧ (∀ q : BitVec 3, q ≠ 0 → x.rp q = 0) ∧ x.rp 0 = BitVec.allOnes 32 ∧ (∀ q : BitVec 3, fld (x.rs q) 127 126 = 0) ∧
      t.rv c r = 0 ∧ (∀ a, Mem.read t.pool a = 0) ∧
      x.tth = 0x3F000000 ∧ x.ups = 0 ∧ x.trc = 0 ∧ x.tra = 0 ∧ x.epc = 0 ∧ x.supervisor = false ∧
      t.blk.lr.trv = 0 ∧ t.blk.lr.jix = 0 ∧ t.blk.lr.vwd = 0 ∧ t.blk.lr.tid.toNat = k % 192 * 256 + k / 192 ∧
      (∀ a : Fin 8, t.blk.arr.accs.get a = { vld := false, drt := false, ifl := false, own := 0 }) ∧
      State.reset.time = 0

/-! ### Page 0: results (R155 to R162) -/

/-- R155, R156, R158, R161, R162: every page 0 instruction whose result is a general register completes wherever it is enabled and
names no outstanding register, writes exactly that register, and goes on with the next unit. R158, R159, R160: leading and
trailing zeros, widths and bit fields, bit by bit. -/
def Obligations.ScalarResults : Prop :=
  ((∀ s u, Free s u [] [] → Completes (.nop u) s (NoResult s u)) ∧
  Unary .mov (fun x => x) ∧
  (∀ s u, Free s u [u.a] [] → Completes (.ldi u) s (ScalarResult s u u.a u.ik)) ∧
  AluBoth .add .addImm (fun x y => x + y) ∧
  AluBoth .sub .subImm (fun x y => x - y) ∧
  AluBoth .mul .mulImm (fun x y => x * y) ∧
  AluBoth .mulh .mulhImm (fun x y => BitVec.ofInt 64 (x.toInt * y.toInt / 2 ^ 64)) ∧
  AluBoth .mulhu .mulhuImm (fun x y => BitVec.ofNat 64 (x.toNat * y.toNat / 2 ^ 64)) ∧
  AluBoth .and .andImm (fun x y => x &&& y) ∧
  AluBoth .or .orImm (fun x y => x ||| y) ∧
  AluBoth .xor .xorImm (fun x y => x ^^^ y) ∧
  AluBoth .andn .andnImm (fun x y => x &&& ~~~y) ∧
  AluBoth .shl .shlImm (fun x y => x <<< (y.extractLsb' 0 6).toNat) ∧
  AluBoth .shr .shrImm (fun x y => x >>> (y.extractLsb' 0 6).toNat) ∧
  AluBoth .sar .sarImm (fun x y => x.sshiftRight (y.extractLsb' 0 6).toNat) ∧
  AluBoth .rol .rolImm rolBits ∧
  AluBoth .min .minImm (fun x y => if x.toInt ≤ y.toInt then x else y) ∧
  AluBoth .max .maxImm (fun x y => if y.toInt ≤ x.toInt then x else y) ∧
  AluBoth .minu .minuImm (fun x y => if x.toNat ≤ y.toNat then x else y) ∧
  AluBoth .maxu .maxuImm (fun x y => if y.toNat ≤ x.toNat then x else y) ∧
  AluBoth .seq .seqImm (fun x y => flagWord (x = y)) ∧
  AluBoth .slt .sltImm (fun x y => flagWord (x.toInt < y.toInt)) ∧
  AluBoth .sltu .sltuImm (fun x y => flagWord (x.toNat < y.toNat)) ∧
  Unary .popc (fun x => BitVec.ofNat 64 ((List.range 64).countP (fun i => x.getLsbD i))) ∧
  (∀ s u, Free s u [u.a, u.b, u.c] [] →
    Completes (.sel u) s (ScalarResult s u u.a (if s.cx.rg u.a = 0 then s.cx.rg u.c else s.cx.rg u.b))) ∧
  (∀ s u, Free s u [u.a, u.b, u.c] [] →
    Completes (.shadd u) s (ScalarResult s u u.a (s.cx.rg u.b * BitVec.ofNat 64 (2 ^ u.xbits 2 0) + s.cx.rg u.c)))) ∧
  ((∀ s u, Free s u [u.a, u.b] [] → ∃ n : Nat, n ≤ 64 ∧ (∀ i, i < n → (s.cx.rg u.b).getLsbD (63 - i) = false) ∧
    (n < 64 → (s.cx.rg u.b).getLsbD (63 - n) = true) ∧ Completes (.clz u) s (ScalarResult s u u.a (BitVec.ofNat 64 n))) ∧
  (∀ s u, Free s u [u.a, u.b] [] → ∃ n : Nat, n ≤ 64 ∧ (∀ i, i < n → (s.cx.rg u.b).getLsbD i = false) ∧
    (n < 64 → (s.cx.rg u.b).getLsbD n = true) ∧ Completes (.ctz u) s (ScalarResult s u u.a (BitVec.ofNat 64 n))) ∧
  (∀ (s : State) (u : VUnit), Free s u (if u.xr then [u.a, u.c] else [u.a]) [] → 1 ≤ u.ik.toNat → u.ik.toNat ≤ 64 →
    let x := if u.xr then s.cx.rg u.c else s.cx.rg u.a
    ∃ v w : Word, Completes (.sext u) s (ScalarResult s u u.a v) ∧ Completes (.zext u) s (ScalarResult s u u.a w) ∧
      ∀ i, i < 64 → v.getLsbD i = x.getLsbD (min i (u.ik.toNat - 1)) ∧ w.getLsbD i = (decide (i < u.ik.toNat) && x.getLsbD i)) ∧
  (∀ (s : State) (u : VUnit), Free s u [u.a, u.b] [] → u.c.toNat + (u.xbits 5 0 + 1) ≤ 64 →
    let len := u.xbits 5 0 + 1
    ∃ v w : Word, Completes (.bfx u) s (ScalarResult s u u.a v) ∧ Completes (.bfi u) s (ScalarResult s u u.a w) ∧
      ∀ i, i < 64 →
        v.getLsbD i = (if i < len then (s.cx.rg u.b).getLsbD (u.c.toNat + i)
          else u.xbits 6 6 == 1 && (s.cx.rg u.b).getLsbD (u.c.toNat + len - 1)) ∧
        w.getLsbD i = if u.c.toNat ≤ i ∧ i < u.c.toNat + len then (s.cx.rg u.b).getLsbD (i - u.c.toNat) else (s.cx.rg u.a).getLsbD i))

/-- R157: the four divisions, with their op6, their operands and their corners; they never trap: a unit that is skipped goes on
with the next, and one whose register is outstanding waits for it. -/
def Obligations.DivideResults : Prop :=
  AluBoth .div .divImm quoS ∧ AluBoth .rem .remImm remS ∧ AluBoth .divu .divuImm quoU ∧ AluBoth .remu .remuImm remU ∧
  (∀ u : VUnit, [Instr.div u, .divu u, .rem u, .remu u, .divImm u, .divuImm u, .remImm u, .remuImm u].map instrCode =
    [some (0, 0x08, u), some (0, 0x09, u), some (0, 0x0A, u), some (0, 0x0B, u),
     some (0, 0x08, u), some (0, 0x09, u), some (0, 0x0A, u), some (0, 0x0B, u)]) ∧
  (∀ (s : State) (u : VUnit), s.enabled u = false →
    ∀ i ∈ [Instr.div u, .divu u, .rem u, .remu u, .divImm u, .divuImm u, .remImm u, .remuImm u], Completes i s (NoResult s u)) ∧
  (∀ (s : State) (u : VUnit), let rs := if u.xr then [u.a, u.b, u.c] else [u.a, u.b]
    s.enabled u = true → s.cx.blocking rs [] ≠ [] → ∀ i ∈ [Instr.div u, .divu u, .rem u, .remu u],
      Completes i s (Waits s (.results (s.cx.blocking rs [])))) ∧
  (∀ (s : State) (u : VUnit), let rs := if u.xr then [u.a, u.c] else [u.a]
    s.enabled u = true → s.cx.blocking rs [] ≠ [] → ∀ i ∈ [Instr.divImm u, .divuImm u, .remImm u, .remuImm u],
      Completes i s (Waits s (.results (s.cx.blocking rs []))))

/-! ### Page 0: control (R163 to R172) -/

/-- R164 to R167: every transfer of control sets pc, and the link where it writes one, and changes nothing else. R166: LOOP reads
g(b), counts g(a) down, and branches while the two differ; with a = b it branches on every pass. -/
def Obligations.TransfersLoopsAndBranches : Prop :=
  ((∀ s u, Free s u [] [] → Completes (.br u) s (Jumped s u (s.cx.pc + 2 * u.ib) 0 0)) ∧
  (∀ s u, Free s u [63] [] →
    Completes (.call u) s (Jumped s u (s.cx.pc + 2 * u.ib) 63 (s.cx.pc + BitVec.ofNat 64 (2 * u.words)))) ∧
  (∀ s u, Free s u [u.b, 63] [] →
    Completes (.callr u) s (Jumped s u (s.cx.rg u.b) 63 (s.cx.pc + BitVec.ofNat 64 (2 * u.words)))) ∧
  (∀ s u, Free s u [u.b] [] → Completes (.jmpr u) s (Jumped s u (s.cx.rg u.b) 0 0)) ∧
  (∀ s u, Free s u [63] [] → Completes (.ret u) s (Jumped s u (s.cx.rg 63) 0 0)) ∧
  BranchIf .cbeq (fun x y => x = y) ∧ BranchIf .cbne (fun x y => x ≠ y) ∧
  BranchIf .cblt (fun x y => x.toInt < y.toInt) ∧ BranchIf .cbge (fun x y => x.toInt ≥ y.toInt) ∧
  BranchIf .cbltu (fun x y => x.toNat < y.toNat) ∧ BranchIf .cbgeu (fun x y => x.toNat ≥ y.toNat)) ∧
  ((∀ s u, Free s u [u.a, u.b] [] → s.cx.rg u.a - 1 ≠ s.cx.rg u.b →
    Completes (.loop u) s (Jumped s u (s.cx.pc + 2 * u.ic) u.a (s.cx.rg u.a - 1))) ∧
  (∀ s u, Free s u [u.a, u.b] [] → s.cx.rg u.a - 1 = s.cx.rg u.b →
    Completes (.loop u) s (ScalarResult s u u.a (s.cx.rg u.a - 1))) ∧
  (∀ s u, Free s u [u.a, u.b] [] → u.a = u.b → Completes (.loop u) s (fun t => (here s t).pc = s.cx.pc + 2 * u.ic)) ∧
  ∀ u : VUnit, instrCode (.loop u) = some (0, 0x2F, u))

/-- R168, R427: DONE ends the task: the serial advances, pending refusals are discarded and counted as lost, the monitor is
disarmed, and the context waits under R53 (as after BRIMX where it was diverted). R169: PARK does not wait where an answer is in
or its time has come, and otherwise waits; pc names PARK while it waits (R427), and the wait holds the unit's length; it writes no register. A reading of the clock is stated for a
tile that neither logs nor replays; what logging adds is in `MarksCountersAndReadings`. -/
def Obligations.TaskEndAndPark : Prop :=
  (∀ s u, Free s u [] [] → Completes (.done u) s
    (Away s (fun t => t.modNi fun k => { k with lrc := k.lrc + BitVec.ofNat 32 s.cx.apnd.length })
      (fun c => { c with tsn := c.tsn + 1, apnd := [], marm := false, run := .ending c.diverted }))) ∧
  (∀ s u, Free s u [u.a] [] → s.cx.ans ≠ 0 → Completes (.park u) s (NoResult s u)) ∧
  (∀ s u, Free s u [u.a] [] → s.cx.ans = 0 → s.cx.rg u.a = 0 → Completes (.park u) s
    (Away s id (fun c => { c with run := .waiting (.park 0 (2 * u.words)) }))) ∧
  (∀ s u, Free s u [u.a] [] → s.cx.ans = 0 → s.cx.rg u.a ≠ 0 → s.logs s.cur = false → s.me.vol.replay = none →
    (s.cx.rg u.a).toNat ≤ (s.timeAt s.cur).toNat → Completes (.park u) s (NoResult s u)) ∧
  (∀ s u, Free s u [u.a] [] → s.cx.ans = 0 → s.cx.rg u.a ≠ 0 → s.logs s.cur = false → s.me.vol.replay = none →
    (s.timeAt s.cur).toNat < (s.cx.rg u.a).toNat → Completes (.park u) s
    (Away s id (fun c => { c with run := .waiting (.park (s.cx.rg u.a) (2 * u.words)) })))

/-- R170, R154: TRAP takes the software trap: EPC its own offset, TRA the code above the next unit's offset, pc the handler. -/
def Obligations.TrapEntersItsHandler : Prop :=
  ∀ s u, CanTrap s → Free s u [] [] →
    Completes (.trap u) s (Trapped s 0x1A ((u.ik <<< 32) ||| (s.cx.pc + BitVec.ofNat 64 (2 * u.words))) (s.me.blk.lr.trv.setWidth 64))

/-- R96, R97, R163, R425: a fetch that gives no unit raises its trap with the failing word's offset in TRA; the overlay trap goes to
UPV.OVH, the others to TRV. R428, R425: with a trap open, or no handler, a trap is fatal: EPC, TRA and TRC.CAU are written, NEST
and ASY stand, the context stops, and its tile reports it to the command processor, once: a tile under replay does not again (R440).
R425: on a TSC or a rim core every trap is a
supervisor trap: SEPC, SEC and SST[0] are written, the privilege becomes supervisor and pc SVEC; EPC, TRC and TRA stand. -/
def Obligations.FailedFetchesAndFatalTraps : Prop :=
  (∀ (s : State) (a : Word), (∃ t, exec (.illegalInstruction a) s = .next t ∧ FetchFailed s 0x01 a t) ∧
    (∃ t, exec (.overlayTrap a) s = .next t ∧ FetchFailed s 0x03 a t) ∧ (∃ t, exec (.instructionFetchTrap a) s = .next t ∧ FetchFailed s 0x04 a t)) ∧
  ((∀ s a, CanTrap s → Completes (.illegalInstruction a) s (Trapped s 0x01 a (s.me.blk.lr.trv.setWidth 64))) ∧
  (∀ s a, CanTrap s → Completes (.instructionFetchTrap a) s (Trapped s 0x04 a (s.me.blk.lr.trv.setWidth 64))) ∧
  (∀ s a, s.cur < 30720 → s.cx.nest = false → fld s.me.blk.lr.upv 52 32 ≠ 0 →
    Completes (.overlayTrap a) s (Trapped s 0x03 a (BitVec.ofNat 64 (fld s.me.blk.lr.upv 52 32))))) ∧
  (∀ s a g, s.cur < 30720 → (s.cx.nest = true ∨ s.me.blk.lr.trv = 0) → s.me.blk.lr.gang = some g →
    Completes (.illegalInstruction a) s (fun t =>
      (here s t).run = .stopped true ∧ (here s t).epc = s.cx.pc ∧ (here s t).tra = a ∧ (here s t).pc = s.cx.pc ∧
      fld (here s t).trc 7 0 = 1 ∧ fld (here s t).trc 15 8 = fld s.cx.trc 15 8 ∧
      (∀ r, (here s t).rg r = s.cx.rg r) ∧
      t.cp.reports = s.cp.reports ++ (if s.me.vol.replay.isSome then [] else [(g, fatalWord s.cur s.me.blk.hold 1 s.cx.pc, a)]) ∧
      t = { s with tiles := t.tiles, cp := { s.cp with reports := t.cp.reports } } ∧
      (∀ k, k ≠ s.cur → t.tile k = s.tile k) ∧ (mine s t).pool = s.me.pool ∧
      ∀ c, c % 8 ≠ s.me.blk.hold % 8 → (mine s t).ctx c = s.me.ctx c)) ∧
  (∀ s a, 30720 ≤ s.cur → s.cx.svec ≠ 0 → Completes (.illegalInstruction a) s (fun t => OnlyContext s t ∧
    here s t = { s.cx with sepc := s.cx.pc, sec := 1, sst := setFld s.cx.sst 0 0 s.cx.supervisor.toNat, supervisor := true,
                           pc := s.cx.svec, run := .ready }))

/-- R171: UPRET closes an open trap first, else an open upcall, and goes to g(b); with neither open it is an illegal instruction.
R172: ERET goes to SEPC in the privilege that SST[0] holds, and clears SST[0]; in user mode it is a privileged trap. -/
def Obligations.ReturnsFromHandlers : Prop :=
  ((∀ s u, Free s u [u.b] [] → s.cx.nest = true → Completes (.upret u) s (fun t => OnlyContext s t ∧
    here s t = { s.cx with trc := setFld s.cx.trc 9 9 0, pc := s.cx.rg u.b, run := (here s t).run })) ∧
  (∀ s u, Free s u [u.b] [] → s.cx.nest = false → s.cx.upCause ≠ 0 → Completes (.upret u) s (fun t => OnlyContext s t ∧
    here s t = { s.cx with ups := setFld s.cx.ups 7 0 0, pc := s.cx.rg u.b, run := (here s t).run })) ∧
  (∀ s u, Free s u [u.b] [] → CanTrap s → s.cx.upCause = 0 →
    Completes (.upret u) s (Trapped s 0x01 s.cx.pc (s.me.blk.lr.trv.setWidth 64)))) ∧
  ((∀ s u, s.cx.supervisor = true → Free s u [] [] → Completes (.eret u) s (fun t => OnlyContext s t ∧
    here s t = { s.cx with pc := s.cx.sepc, supervisor := s.cx.sst.getLsbD 0, sst := setFld s.cx.sst 0 0 0, run := (here s t).run })) ∧
  (∀ s u, CanTrap s → s.cx.supervisor = false → Completes (.eret u) s (Trapped s 0x02 s.cx.pc (s.me.blk.lr.trv.setWidth 64)))) ∧
  ∀ u : VUnit, instrCode (.upret u) = some (0, 0x32, u) ∧ instrCode (.eret u) = some (0, 0x35, u)

/-- R96, R144, R172: in user mode a supervisor-only unit, and GETS or SETS of a supervisor-only register, raise the privileged trap
with TRA = PC, whatever their predicate. -/
def Obligations.UserModeIsPrivilegedTrap : Prop :=
  ∀ (s : State) (u : VUnit), CanTrap s → s.cx.supervisor = false →
    (∀ i ∈ [Instr.eret u, .tlbw u, .tlbi u, .tlbp u, .rcls u, .fctx u, .dcls u, .asidg u],
      Completes i s (Trapped s 0x02 s.cx.pc (s.me.blk.lr.trv.setWidth 64))) ∧
    (0x100 ≤ u.x → u.x ≤ 0x106 → ∀ i ∈ [Instr.gets u, .sets u],
      Completes i s (Trapped s 0x02 s.cx.pc (s.me.blk.lr.trv.setWidth 64)))

/-- R144 to R147, R173: GETS of each system register gives its value, zero-extended. TID (R147) is a tile's coordinates from reset on; on a TSC
or rim core, to which the spec gives no coordinates, it holds what reset has put there, which is the model's choice (entry 14). -/
def Obligations.GetsReadsEveryRegister : Prop :=
  Reads 0x000 (fun s => s.me.blk.lr.xb.setWidth 64) ∧
  Reads 0x001 (fun s => BitVec.ofNat 64 s.me.blk.hold) ∧
  Reads 0x002 (fun s => s.me.blk.lr.tid.setWidth 64) ∧
  Reads 0x003 (fun s => BitVec.ofNat 64 s.me.blk.lr.rank) ∧
  Reads 0x004 (fun s => BitVec.ofNat 64 s.me.blk.lr.gxo) ∧ Reads 0x005 (fun s => BitVec.ofNat 64 s.me.blk.lr.gyo) ∧
  Reads 0x006 (fun s => BitVec.ofNat 64 s.me.blk.lr.gw) ∧ Reads 0x007 (fun s => BitVec.ofNat 64 s.me.blk.lr.gh) ∧
  Reads 0x008 (fun s => (s.me.blk.lr.bh ++ s.me.blk.lr.bw ++ s.me.blk.lr.pres : BitVec 24).setWidth 64) ∧
  Reads 0x009 (fun s => s.me.blk.lr.part) ∧
  Reads 0x00A (fun s => if s.me.blk.lr.ord then 1 else 0) ∧
  Reads 0x00B (fun s => s.cx.tth.setWidth 64) ∧
  Reads 0x010 (fun s => s.me.blk.lr.dln) ∧ Reads 0x011 (fun s => s.me.blk.lr.brt) ∧ Reads 0x012 (fun s => s.me.blk.lr.vwd) ∧
  Reads 0x013 (fun s => s.me.blk.lr.steps) ∧ Reads 0x014 (fun s => s.me.blk.lr.lscl.setWidth 64) ∧
  Reads 0x015 (fun s => s.me.vol.mapg.setWidth 64) ∧ Reads 0x018 (fun s => s.me.blk.lr.upv) ∧ Reads 0x019 (fun s => s.cx.ups) ∧
  Reads 0x01C (fun s => s.me.blk.lr.trv.setWidth 64) ∧ Reads 0x01D (fun s => s.cx.trc.setWidth 64) ∧
  Reads 0x01E (fun s => s.cx.tra) ∧ Reads 0x01F (fun s => s.me.blk.lr.jix) ∧
  Reads 0x020 (fun s => (s.cx.epc.extractLsb' 0 21).setWidth 64) ∧
  Reads 0x100 (fun s => s.cx.sst) ∧ Reads 0x101 (fun s => s.cx.sepc) ∧ Reads 0x102 (fun s => s.cx.sec) ∧
  Reads 0x103 (fun s => s.cx.svec) ∧ Reads 0x104 (fun s => s.cx.asn) ∧ Reads 0x105 (fun s => s.cx.psd) ∧ Reads 0x106 (fun s => s.cx.hbc)

/-- R144, R146, R147, R173, R174: SETS narrows g(b) to the register's fields and writes that register alone; a value that breaks
the register's rule is an illegal instruction with TRA = PC. A write of HBC on a TSC is also its heartbeat (R430). -/
def Obligations.SetsWritesEveryRegister : Prop :=
  SetsTile 0x000 true (fun s x => fld x 20 0 % 128 = 0 ∧ fld x 20 0 ≤ s.me.lim) (fun x r => { r with xb := x.setWidth 21 }) ∧
  SetsCtx 0x00B true (fun x c => { c with tth := x.setWidth 32 }) ∧
  SetsTile 0x018 true (fun s x => Entry s (fld x 20 0) ∧ Entry s (fld x 52 32)) (fun x r => { r with upv := x &&& 0x001FFFFF001FFFFF }) ∧
  SetsCtx 0x019 false (fun x c => { c with ups := x &&& 0xFFFFFFFF }) ∧
  SetsTile 0x01C true (fun s x => Entry s (fld x 20 0)) (fun x r => { r with trv := x.setWidth 21 }) ∧
  SetsCtx 0x01D true (fun x c => { c with trc := x.setWidth 16 &&& 0x3FF }) ∧
  SetsCtx 0x01E false (fun x c => { c with tra := x }) ∧
  SetsTile 0x01F false (fun _ _ => True) (fun x r => { r with jix := x &&& 0x800000000000003F }) ∧
  SetsCtx 0x020 false (fun x c => { c with epc := x &&& 0x1FFFFF }) ∧
  SetsCtx 0x100 false (fun x c => { c with sst := x &&& 3 }) ∧ SetsCtx 0x101 false (fun x c => { c with sepc := x }) ∧
  SetsCtx 0x102 false (fun x c => { c with sec := x }) ∧ SetsCtx 0x103 false (fun x c => { c with svec := x }) ∧
  SetsCtx 0x104 false (fun x c => { c with asn := x &&& 0xFFFF }) ∧ SetsCtx 0x105 false (fun x c => { c with psd := x }) ∧
  (∀ (s : State) (u : VUnit), u.x = 0x106 → s.cx.supervisor = true → Free s u [u.b] [] →
    Completes (.sets u) s (fun t => (here s t).hbc = s.cx.rg u.b ∧ Past u s.cx (here s t) ∧
      ((s.cur < 30720 ∨ 32768 ≤ s.cur) → t.clusters = s.clusters) ∧
      (30720 ≤ s.cur → s.cur < 32768 → (t.cluster (s.cur - 30720)).tscBeat = true))) ∧
  (∀ (s : State) (u : VUnit), CanTrap s → Free s u [u.b] [] →
    ((u.x = 0x000 ∧ ¬ (fld (s.cx.rg u.b) 20 0 % 128 = 0 ∧ fld (s.cx.rg u.b) 20 0 ≤ s.me.lim)) ∨
      (u.x = 0x018 ∧ ¬ (Entry s (fld (s.cx.rg u.b) 20 0) ∧ Entry s (fld (s.cx.rg u.b) 52 32))) ∨
      (u.x = 0x01C ∧ ¬ Entry s (fld (s.cx.rg u.b) 20 0))) →
    Completes (.sets u) s (Trapped s 0x01 s.cx.pc (s.me.blk.lr.trv.setWidth 64)))

/-- R93: every unit of page 0, and of pages 2, 3 and 6 those named, whose predicate is off changes nothing and goes on with the next unit;
GETS and SETS of a supervisor-only register and ERET do so in supervisor mode, since in user mode they trap whatever their predicate (R96,
R144, R172). R55, R149: a unit that names a register whose result is outstanding does not issue: its context waits for that result and issue
passes on; for the units of page 0 that name a register. -/
def Obligations.SkippedAndHeldUnits : Prop :=
  (∀ (s : State) (u : VUnit), s.enabled u = false → ∀ i ∈
      [Instr.nop u, .mov u, .ldi u, .add u, .addImm u, .sub u, .subImm u, .mul u, .mulImm u, .mulh u, .mulhImm u, .mulhu u, .mulhuImm u,
       .and u, .andImm u, .or u, .orImm u, .xor u, .xorImm u, .andn u, .andnImm u, .shl u, .shlImm u, .shr u, .shrImm u, .sar u,
       .sarImm u, .rol u, .rolImm u, .min u, .minImm u, .max u, .maxImm u, .minu u, .minuImm u, .maxu u, .maxuImm u, .seq u, .seqImm u,
       .slt u, .sltImm u, .sltu u, .sltuImm u, .div u, .divImm u, .divu u, .divuImm u, .rem u, .remImm u, .remu u, .remuImm u, .popc u,
       .clz u, .ctz u, .sext u, .zext u, .bfx u, .bfi u, .sel u, .shadd u, .br u, .call u, .callr u, .jmpr u, .ret u, .cbeq u, .cbne u,
       .cblt u, .cbge u, .cbltu u, .cbgeu u, .loop u, .done u, .park u, .trap u, .upret u], Completes i s (NoResult s u)) ∧
  (∀ (s : State) (u : VUnit), s.enabled u = false → ∀ i ∈
      [Instr.lease u, .unlease u, .mfmt u, .ldb u, .ldd u, .stw u, .std u, .aadd u, .acas u, .redadd u, .fence u, .jdrain u, .mona u,
       .monw u, .pref u, .arv u, .wtb u, .barq u, .gett u, .slack u, .valid u, .brimx u, .step u, .gstep u, .perf u], Completes i s (NoResult s u)) ∧
  (∀ (s : State) (u : VUnit), s.enabled u = false → (MayGet s u → Completes (.gets u) s (NoResult s u)) ∧
    (MaySet s u → Completes (.sets u) s (NoResult s u))) ∧
  (∀ (s : State) (u : VUnit), s.enabled u = false → s.cx.supervisor = true → Completes (.eret u) s (NoResult s u)) ∧
  (∀ (s : State) (u : VUnit) (rs : List RegNo), s.enabled u = true → s.cx.blocking rs [] ≠ [] →
    (rs = [u.a, u.b] → ∀ i ∈ [Instr.mov u, .popc u, .clz u, .ctz u, .cbeq u, .cbne u, .cblt u, .cbge u, .cbltu u, .cbgeu u, .loop u, .bfx u, .bfi u],
      Completes i s (Waits s (.results (s.cx.blocking rs [])))) ∧
    (rs = (if u.xr then [u.a, u.b, u.c] else [u.a, u.b]) → ∀ i ∈
      [Instr.add u, .sub u, .mul u, .mulh u, .mulhu u, .and u, .or u, .xor u, .andn u, .shl u, .shr u, .sar u, .rol u, .min u, .max u,
       .minu u, .maxu u, .seq u, .slt u, .sltu u, .div u, .divu u, .rem u, .remu u],
      Completes i s (Waits s (.results (s.cx.blocking rs [])))) ∧
    (rs = (if u.xr then [u.a, u.c] else [u.a]) → ∀ i ∈
      [Instr.addImm u, .subImm u, .mulImm u, .mulhImm u, .mulhuImm u, .andImm u, .orImm u, .xorImm u, .andnImm u, .shlImm u, .shrImm u,
       .sarImm u, .rolImm u, .minImm u, .maxImm u, .minuImm u, .maxuImm u, .seqImm u, .sltImm u, .sltuImm u, .divImm u, .divuImm u,
       .remImm u, .remuImm u],
      Completes i s (Waits s (.results (s.cx.blocking rs [])))) ∧
    (rs = (if u.xr then [u.a, u.c] else [u.a]) → ∀ i ∈ [Instr.sext u, .zext u], Completes i s (Waits s (.results (s.cx.blocking rs [])))) ∧
    (rs = [u.a, u.b, u.c] → ∀ i ∈ [Instr.sel u, .shadd u], Completes i s (Waits s (.results (s.cx.blocking rs [])))) ∧
    (rs = [u.a] → ∀ i ∈ [Instr.ldi u, .park u], Completes i s (Waits s (.results (s.cx.blocking rs [])))) ∧
    (rs = [u.b] → ∀ i ∈ [Instr.jmpr u, .upret u], Completes i s (Waits s (.results (s.cx.blocking rs [])))) ∧
    (rs = [63] → ∀ i ∈ [Instr.call u, .ret u], Completes i s (Waits s (.results (s.cx.blocking rs [])))) ∧
    (rs = [u.b, 63] → Completes (.callr u) s (Waits s (.results (s.cx.blocking rs [])))) ∧
    (MayGet s u → rs = [u.a] → Completes (.gets u) s (Waits s (.results (s.cx.blocking rs [])))) ∧
    (MaySet s u → rs = [u.b] → Completes (.sets u) s (Waits s (.results (s.cx.blocking rs [])))))

/-! ### Page 1 (R176 to R202) -/

/-- R181 to R189, R193: every element-wise instruction writes exactly its enabled elements of v(a), each by the rule of its
element, and changes nothing else. -/
def Obligations.ElementwiseResults : Prop :=
  Lanes1 .vmov (fun _ _ x => x) ∧
  Lanes2 .vadd elAdd ∧ Lanes2 .vsub elSub ∧ Lanes2 .vmul elMul ∧ Lanes2 .vmin elMin ∧ Lanes2 .vmax elMax ∧
  Lanes2 .vand (fun _ _ x y => x &&& y) ∧ Lanes2 .vor (fun _ _ x y => x ||| y) ∧ Lanes2 .vxor (fun _ _ x y => x ^^^ y) ∧
  Lanes3 .vfma (elFma false) ∧ Lanes3 .vfms (elFma true) ∧
  Lanes1 .vabs elAbs ∧ Lanes1 .vneg elNeg ∧
  Lanes1 .vrcp (fun _ _ x => rcp32 x) ∧ Lanes1 .vrsq (fun _ _ x => rsq32 x) ∧ Lanes1 .vexp2 (fun _ _ x => exp2 x) ∧
  Lanes2 .vshl (fun t _ x n => x <<< (n % widthOf t)) ∧ Lanes2 .vshr (fun t _ x n => x >>> (n % widthOf t)) ∧
  Lanes2 .vsar (fun t _ x n => wrapInt (widthOf t) (Int.shiftRight (sInt (widthOf t) x) (n % widthOf t))) ∧
  Elementwise .vshlImm (fun _ => []) vregs2i (fun s u k => elXi s u k <<< (u.ik.toNat % widthOf u.ety)) ∧
  Elementwise .vshrImm (fun _ => []) vregs2i (fun s u k => elXi s u k >>> (u.ik.toNat % widthOf u.ety)) ∧
  Elementwise .vsarImm (fun _ => []) vregs2i
    (fun s u k => wrapInt (widthOf u.ety) (Int.shiftRight (sInt (widthOf u.ety) (elXi s u k)) (u.ik.toNat % widthOf u.ety))) ∧
  Elementwise .vbcast (fun u => [u.b]) (fun u => [u.a]) (fun s u _ => (s.cx.rg u.b).toNat) ∧
  Elementwise .vbcastImm (fun _ => []) (fun u => [u.a]) (fun _ u _ => immEl u.ety u.ik.toInt) ∧
  Elementwise .viota (fun _ => []) (fun u => [u.a]) (fun _ u k => immEl u.ety k) ∧
  Elementwise .viotaImm (fun _ => []) (fun u => [u.a]) (fun _ u k => immEl u.ety (u.ik.toInt + k)) ∧
  Elementwise .vperm (fun _ => []) (fun u => [u.a, u.b, u.c])
    (fun s u k => el s u u.b (el s u u.c k % (1024 / widthOf u.ety))) ∧
  Elementwise .vrot (fun _ => []) (fun u => u.a :: vregs2i u)
    (fun s u k => elXi s u ((k + u.ik.toNat % (1024 / widthOf u.ety)) % (1024 / widthOf u.ety)))

/-- R183, R114: an integer element of VADD, VSUB, VMUL is the exact result modulo 2^w, or with sat the nearest value of the type.
R109, R110, R183: a NaN operand of a float VADD, VSUB, VMUL, VMIN or VMAX gives the canonical NaN of the type; an exact sum of a
number and its opposite is +0, or −0 when rounding down. R184: VFMA and VFMS: a NaN operand and ∞ × 0 give the canonical NaN, VFMS is VFMA
with b's sign inverted, and one rounding follows the exact sum. R185: VABS and VNEG. R125 to R127, R187, R188: the special inputs of VEXP2, VRCP
and VRSQ, and results worked out by hand from their steps; the first of VEXP2 is the spec's worked example, and the four entries of its table
are those that R127 lists. -/
def Obligations.ElementArithmetic : Prop :=
  (∀ t mode x y : Nat, 3 ≤ t → t < 8 →
    (∀ f ∈ [(elAdd, elInt t x + elInt t y), (elSub, elInt t x - elInt t y), (elMul, elInt t x * elInt t y)],
      (mode ≠ 4 → (f.1 t mode x y : Int) = f.2 % 2 ^ widthOf t) ∧
      (mode = 4 → elInt t (f.1 t mode x y) = if f.2 < tyMin t then tyMin t else if tyMax t < f.2 then tyMax t else f.2)) ∧
    elInt t (elMin t mode x y) = min (elInt t x) (elInt t y) ∧ elInt t (elMax t mode x y) = max (elInt t x) (elInt t y)) ∧
  (∀ t mode x y : Nat, t < 3 → mode < 4 →
    (((fmtOf t).val x).isNan = true ∨ ((fmtOf t).val y).isNan = true →
      ∀ f ∈ [elAdd, elSub, elMul, elMin, elMax], f t mode x y = (fmtOf t).nan) ∧
    (((fmtOf t).val x).finite = true → x < 2 ^ (widthOf t) → x % 2 ^ (widthOf t - 1) ≠ 0 →
      elSub t mode x x = if mode = 3 then 2 ^ (widthOf t - 1) else 0)) ∧
  (∀ p ∈ [(0, 0x3F800000), (1, 0x3F800000), (2, 0x3F800001), (3, 0x3F800000)], elAdd 0 p.1 0x3F800000 0x33800000 = p.2) ∧
  (∀ (sub : Bool) (t mode a b c : Nat), t < 3 →
    (((fmtOf t).val a).isNan = true ∨ ((fmtOf t).val b).isNan = true ∨ ((fmtOf t).val c).isNan = true → elFma sub t mode a b c = (fmtOf t).nan) ∧
    (∀ n q e, (fmtOf t).val b = .inf n → (fmtOf t).val c = .fin q 0 e → elFma sub t mode a b c = (fmtOf t).nan) ∧
    (b < 2 ^ widthOf t → elFma true t mode a b c = elFma false t mode a (b ^^^ 2 ^ (widthOf t - 1)) c)) ∧
  (elFma false 0 0 0xBF801000 0x3F800800 0x3F800800 = 0x33800000 ∧ elFma true 0 0 0x3F801000 0x3F800800 0x3F800800 = 0xB3800000 ∧
    elFma false 1 0 0xBF90 0x3F88 0x3F88 = 0x3B80 ∧ elFma false 2 0 0xBC20 0x3C10 0x3C10 = 0x0C00) ∧
  (∀ t mode x : Nat, t < 3 → x < 2 ^ widthOf t →
    (((fmtOf t).val x).isNan = true → elAbs t mode x = (fmtOf t).nan ∧ elNeg t mode x = (fmtOf t).nan) ∧
    (((fmtOf t).val x).isNan = false → elAbs t mode x = x % 2 ^ (widthOf t - 1) ∧ elNeg t mode x = x ^^^ 2 ^ (widthOf t - 1))) ∧
  (∀ t mode x : Nat, 3 ≤ t → t < 6 →
    (mode ≠ 4 → (elAbs t mode x : Int) = (elInt t x).natAbs % 2 ^ widthOf t ∧ (elNeg t mode x : Int) = -(elInt t x) % 2 ^ widthOf t) ∧
    (mode = 4 → elInt t (elAbs t mode x) = min ((elInt t x).natAbs : Int) (tyMax t) ∧ elInt t (elNeg t mode x) = min (-(elInt t x)) (tyMax t))) ∧
  ((∀ x, (f32.val x).isNan = true → rcp32 x = 0x7FC00000 ∧ rsq32 x = 0x7FC00000 ∧ exp2 x = 0x7FC00000) ∧
    (∀ x m q, f32.val x = .fin true (m + 1) q → rsq32 x = 0x7FC00000) ∧
    (∀ x, x / 2 ^ 23 % 256 = 0 → exp2 x = 0x3F800000) ∧
    (∀ x, 0x43000000 ≤ x → x ≤ 0x7F800000 → exp2 x = 0x7F800000) ∧ (∀ x, 0xC2FC0000 < x → x ≤ 0xFF800000 → exp2 x = 0)) ∧
  (∀ p ∈ [(0, 0x7F800000), (0x80000000, 0xFF800000), (0x7F800000, 0), (0xFF800000, 0x80000000), (0x3F800000, 0x3F800000), (0x40000000, 0x3F000000),
      (0x40400000, 0x3EAAAAAB), (0xC0400000, 0xBEAAAAAB), (0x3FC00000, 0x3F2AAAAB), (0x7F7FFFFF, 0x00200000), (0x00000001, 0x7F800000)], rcp32 p.1 = p.2) ∧
  (∀ p ∈ [(0, 0x7F800000), (0x80000000, 0xFF800000), (0x7F800000, 0), (0xFF800000, 0x7FC00000), (0x3F800000, 0x3F800000), (0x40000000, 0x3F3504F3),
      (0x40400000, 0x3F13CD3A), (0x40800000, 0x3F000000), (0x7F7FFFFF, 0x1F800000), (0x00000001, 0x64B504F3)], rsq32 p.1 = p.2) ∧
  (∀ p ∈ [(0x3F804000, 0x40002C64), (0x3F000000, 0x3FB504F3), (0xBF800000, 0x3F000000), (0x40490FDB, 0x410D331C), (0xC2FC0000, 0x00800000),
      (0x42FE0000, 0x7F000000)], exp2 p.1 = p.2) ∧
  (∀ p ∈ [(0, 0x3F800000), (64, 0x3F9837F0), (128, 0x3FB504F3), (192, 0x3FD744FD)], exp2Table p.1 = p.2)

/-- R182, R191, R192: the moves of single elements, conversion with its placement, and the select that writes every lane. R194, R198:
reductions and reads of predicates give one general register; a disabled element counts as the identity. -/
def Obligations.VectorMovesAndReductions : Prop :=
  ((∀ (s : State) (u : VUnit), LanesFree s [u.a, u.c] [u.b] →
    let i := (s.cx.rg u.c).toNat % (1024 / widthOf u.ety)
    (s.lane u (i * widthOf u.ety / 32) = true → Completes (.vextr u) s (ScalarResult s u u.a
      (if isSignedTy u.ety then BitVec.ofInt 64 (sInt (widthOf u.ety) (el s u u.b i)) else BitVec.ofNat 64 (el s u u.b i)))) ∧
    (s.lane u (i * widthOf u.ety / 32) = false → Completes (.vextr u) s (NoResult s u))) ∧
  (∀ (s : State) (u : VUnit), LanesFree s [u.b, u.c] [u.a] → ∃ x : Vec,
    Completes (.vins u) s (VectorWhere s u u.a (s.lane u ((s.cx.rg u.c).toNat % (1024 / widthOf u.ety) * widthOf u.ety / 32) = true) x) ∧
    ∀ k, k < 1024 / widthOf u.ety → vecEl (widthOf u.ety) x k =
      if k = (s.cx.rg u.c).toNat % (1024 / widthOf u.ety) ∧ s.lane u (k * widthOf u.ety / 32) = true
      then (s.cx.rg u.b).toNat % 2 ^ widthOf u.ety else el s u u.a k) ∧
  (∀ (s : State) (u : VUnit), LanesFree s [] [u.a, u.b, u.c] → ∃ x : Vec, Completes (.vsel u) s (VectorResult s u u.a x) ∧
    ∀ j, j < 32 → vecEl 32 x j = if s.lane u j then vecEl 32 (s.v u.b) j else vecEl 32 (s.v u.c) j) ∧
  (∀ (s : State) (u : VUnit), LanesFree s [] [u.a, u.b] →
    let src := u.xbits 2 0
    let part := u.xbits 4 3
    let nd := 1024 / widthOf u.ety
    let ns := 1024 / widthOf src
    ∃ x : Vec, Completes (.vcvt u) s (VectorWhere s u u.a (∃ i, i < nd ∧ s.lane u (i * widthOf u.ety / 32) = true ∧
      (widthOf u.ety < widthOf src → part * ns ≤ i ∧ i < part * ns + ns)) x) ∧
    let conv := fun k => convert src u.ety u.rnd (vecEl (widthOf src) (s.v u.b) k) % 2 ^ widthOf u.ety
    ∀ i, i < nd → vecEl (widthOf u.ety) x i =
      if s.lane u (i * widthOf u.ety / 32) = false then el s u u.a i
      else if widthOf u.ety = widthOf src then conv i
      else if widthOf u.ety < widthOf src then (if part * ns ≤ i ∧ i < part * ns + ns then conv (i - part * ns) else el s u u.a i)
      else conv (i + part * nd))) ∧
  (LanesToScalar .vredsum (fun u => [u.a]) (fun u => [u.b]) (fun s u =>
    if u.ety < 3 then BitVec.ofNat 64 (treeSum (add32 u.rnd) 0 (treeDepth u.ety) ((enabledEls s u 0).map (fun x => convert u.ety 0 0 x)))
    else BitVec.ofInt 64 ((enabledEls s u 0).map (elInt u.ety)).sum) ∧
  LanesToScalar .vredmax (fun u => [u.a]) (fun u => [u.b]) (fun s u => redPick elMax u.ety u.rnd (enabledEls s u (maxId u.ety))) ∧
  LanesToScalar .vredmin (fun u => [u.a]) (fun u => [u.b]) (fun s u => redPick elMin u.ety u.rnd (enabledEls s u (minId u.ety))) ∧
  LanesToScalar .vredamax (fun u => [u.a]) (fun u => [u.b]) (fun s u => redAmax u.ety u.rnd (enabledEls s u 0)) ∧
  (∀ (s : State) (u : VUnit), LanesFree s [u.a] [] → ∃ v w n : Word, Completes (.pget u) s (ScalarResult s u u.a v) ∧
    Completes (.pcnt u) s (ScalarResult s u u.a w) ∧ Completes (.pfirst u) s (ScalarResult s u u.a n) ∧
    (∀ j, v.getLsbD j = (decide (j < 32) && (s.p u.b).getLsbD j && maskBit s u j)) ∧
    w.toNat = (List.range 32).countP (fun j => (s.p u.b).getLsbD j && maskBit s u j) ∧
    (∀ j, j < n.toNat → v.getLsbD j = false) ∧ n.toNat ≤ 32 ∧ (n.toNat < 32 → v.getLsbD n.toNat = true)))

/-- R190, R198: compares and predicate instructions write the enabled bits of p(a) and no other; p0 keeps all ones. -/
def Obligations.PredicateResults : Prop :=
  Mask .vcmpeq (fun _ => []) (fun u => [u.b, u.c]) (laneHolds 0) ∧
  Mask .vcmplt (fun _ => []) (fun u => [u.b, u.c]) (laneHolds 1) ∧
  Mask .vcmple (fun _ => []) (fun u => [u.b, u.c]) (laneHolds 2) ∧
  Mask .pand (fun _ => []) (fun _ => []) (fun s u j => bitX s u j && bitY s u j) ∧
  Mask .por (fun _ => []) (fun _ => []) (fun s u j => bitX s u j || bitY s u j) ∧
  Mask .pxor (fun _ => []) (fun _ => []) (fun s u j => bitX s u j ^^ bitY s u j) ∧
  Mask .pnot (fun _ => []) (fun _ => []) (fun s u j => !(s.p u.b).getLsbD j) ∧
  Mask .pset (fun u => [u.b]) (fun _ => []) (fun s u j => (s.cx.rg u.b).getLsbD j) ∧
  Mask .psetImm (fun _ => []) (fun _ => []) (fun _ u j => u.ik.getLsbD j)

/-- R195 to R197: the block conversions write their part of v(a) and the exponents to g(c), or read them from it. -/
def Obligations.BlockConversions : Prop :=
  (∀ (s : State) (u : VUnit), LanesFree s [u.c] [u.a, u.b] → 32 * (u.xbits 1 0) + 32 ≤ 1024 / widthOf u.ety →
    let row := fun g => blockPack (widthOf u.ety) ((List.range 16).map fun i => vecEl 32 (s.v u.b) (16 * g + i))
    ∃ x : Vec, Completes (.vpackb u) s (VectorAnd s u u.a x (fun k => k.wg u.c (BitVec.ofNat 64 ((row 1).e * 256 + (row 0).e)))) ∧
      ∀ i, i < 1024 / widthOf u.ety → vecEl (widthOf u.ety) x i =
        if 32 * u.xbits 1 0 ≤ i ∧ i < 32 * u.xbits 1 0 + 32
        then wrapInt (widthOf u.ety) (((row 0).q ++ (row 1).q).getD (i - 32 * u.xbits 1 0) 0) else el s u u.a i) ∧
  (∀ (s : State) (u : VUnit), LanesFree s [u.c] [u.a, u.b] → ∃ x : Vec, Completes (.vunpkb u) s (VectorWhere s u u.a
      (∃ k, k < 1024 / widthOf u.ety ∧ k < 32 ∧ s.lane u (k * widthOf u.ety / 32) = true) x) ∧
    let n := if u.xbits 2 2 = 0 then 8 else 16
    ∀ k, k < 1024 / widthOf u.ety → vecEl (widthOf u.ety) x k =
      if k < 32 ∧ s.lane u (k * widthOf u.ety / 32) = true
      then blockValue (fmtOf u.ety) (sInt n (vecEl n (s.v u.b) (32 * u.xbits 1 0 + k)))
        (if k < 16 then fld (s.cx.rg u.c) 7 0 else fld (s.cx.rg u.c) 15 8) % 2 ^ widthOf u.ety
      else el s u u.a k) ∧
  (∀ (s : State) (u : VUnit), LanesFree s [u.c] (u.a :: (List.range 8).map (fun h => u.b + BitVec.ofNat 6 h)) → u.xbits 2 0 ≤ 4 →
    let px := (List.range 256).map fun n => vecEl 32 (s.v (u.b + BitVec.ofNat 6 (n / 32))) (n % 32)
    let blk := if u.xbits 2 0 = 0 then blockTernary px s.cx.tth.toNat else blockPack (planesOf (u.xbits 2 0)) px
    ∃ x : Vec, Completes (.vplane u) s (VectorAnd s u u.a x (fun k => k.wg u.c (BitVec.ofNat 64 blk.e))) ∧
      ∀ m k j, m < 4 → k < 16 → j < 16 → vecEl 16 x (16 * m + k) / 2 ^ j % 2 =
        planeBit (u.xbits 2 0) (4 * u.xbits 4 3 + m) (blk.q.getD (16 * k + j) 0))

/-- R199, R201: binding, releasing and skipping a stream. R200: the stream forms of VMOV. A read takes min(CNT, 128 / z) elements,
zero past them; a write stores them in ascending order; the stream moves on; where an element is enabled, an exhausted stream or one of the
wrong kind is a stream fault, for SSKIP a stream of the wrong kind (R201); an empty queue makes the context wait. -/
def Obligations.StreamUnits : Prop :=
  ((∀ (s : State) (u : VUnit), LanesFree s [u.b, u.c] [] → bindOk (s.cx.rg u.c ++ s.cx.rg u.b) = true →
    Completes (.sbind u) s (StreamResult s u (u.a.setWidth 3) (s.cx.rg u.c ++ s.cx.rg u.b) 0 0)) ∧
  (∀ (s : State) (u : VUnit), CanTrap s → LanesFree s [u.b, u.c] [] → bindOk (s.cx.rg u.c ++ s.cx.rg u.b) = false →
    Completes (.sbind u) s (Trapped s 0x01 s.cx.pc (s.me.blk.lr.trv.setWidth 64))) ∧
  (∀ (s : State) (u : VUnit), LanesFree s [u.a] [] → let x := s.cx.rs (u.b.setWidth 3)
    Completes (.srel u) s (StreamResult s u (u.b.setWidth 3) 0 u.a (if fld x 127 126 = 0 then 0 else BitVec.ofNat 64 (fld x 95 64)))) ∧
  (∀ (s : State) (u : VUnit), LanesFree s [u.b] [] → let x := s.cx.rs (u.a.setWidth 3)
    fld x 127 126 = 1 ∨ fld x 127 126 = 2 → ∃ y, StreamMoved x y (min (s.cx.rg u.b).toNat (fld x 95 64)) ∧
      Completes (.sskip u) s (StreamResult s u (u.a.setWidth 3) y 0 0)) ∧
  (∀ (s : State) (u : VUnit), CanTrap s → LanesFree s [u.b] [] → let x := s.cx.rs (u.a.setWidth 3)
    fld x 127 126 = 0 ∨ fld x 127 126 = 3 →
      Completes (.sskip u) s (Trapped s 0x13 (BitVec.ofNat 64 u.a.toNat) (s.me.blk.lr.trv.setWidth 64)))) ∧
  ((∀ (s : State) (u : VUnit), LanesFree s [] [u.a] → NotHeld s → let x := s.cx.rs (u.b.setWidth 3)
    fld x 127 126 = 1 → fld x 95 64 ≠ 0 → StreamOk s u x false → (∃ e, e < 128 / strSize x ∧ s.strEl u (strSize x) e = true) →
    ∃ (v : Vec) (y : BitVec 128), StreamMoved x y (strTake x) ∧
      Completes (.vmovStreamRead u) s (VectorAnd s u u.a v (fun k => k.ws (u.b.setWidth 3) y)) ∧
      ∀ e, e < 128 / strSize x → vecEl (8 * strSize x) v e =
        if s.strEl u (strSize x) e then (if e < strTake x then Mem.nat s.me.pool (strAddr x e).toNat (strSize x) else 0)
        else vecEl (8 * strSize x) (s.v u.a) e) ∧
  (∀ (s : State) (u : VUnit), LanesFree s [] [u.a] → NotHeld s → RelFree s s.cx.relNext → let x := s.cx.rs (u.b.setWidth 3)
    fld x 127 126 = 2 → fld x 95 64 ≠ 0 → StreamOk s u x true → (∃ e, e < 128 / strSize x ∧ s.strEl u (strSize x) e = true) →
    ∃ y : BitVec 128, StreamMoved x y (strTake x) ∧
      Completes (.vmovStreamWrite u) s (StoreResult s u
        (((List.range (strTake x)).filter (fun e => s.strEl u (strSize x) e)).map
          (fun e => ((strAddr x e).toNat, leBytes (strSize x) (vecEl (8 * strSize x) (s.v u.a) e))))
        (fun k => { k.ws (u.b.setWidth 3) y with relNext := none }))) ∧
  (∀ (s : State) (u : VUnit), LanesFree s [] [u.a] →
    (∀ e, e < 128 → s.lane u (e / 4) = false) → Completes (.vmovStreamRead u) s (NoResult s u) ∧ Completes (.vmovStreamWrite u) s (NoResult s u)) ∧
  (∀ (s : State) (u : VUnit), CanTrap s → LanesFree s [] [u.a] → let x := s.cx.rs (u.b.setWidth 3)
    let some := ∃ e, e < 128 / strSize x ∧ s.strEl u (strSize x) e = true
    let fails := fun i => Completes i s (Trapped s 0x13 (BitVec.ofNat 64 (u.b.toNat % 8)) (s.me.blk.lr.trv.setWidth 64))
    (some → fld x 127 126 = 1 → fld x 95 64 = 0 → fails (.vmovStreamRead u)) ∧
    (some → fld x 127 126 = 0 ∨ fld x 127 126 = 2 → fails (.vmovStreamRead u)) ∧
    ((∃ j, j < 32 ∧ s.lane u j = true) → fld x 127 126 = 3 → fld x 95 64 = 0 → fails (.vmovStreamRead u)) ∧
    (some → fld x 127 126 ≠ 2 ∨ fld x 95 64 = 0 → fails (.vmovStreamWrite u))) ∧
  (∀ (s : State) (u : VUnit), LanesFree s [] [u.a] → NotHeld s → let x := s.cx.rs (u.b.setWidth 3)
    fld x 127 126 = 3 → fld x 95 64 ≠ 0 → (∃ j, j < 32 ∧ s.lane u j = true) → s.me.eligible s.me.blk.hold (fld x 125 123) = none →
    Completes (.vmovStreamRead u) s (Waits s (.message (fld x 125 123)))) ∧
  (∀ (s : State) (u : VUnit) (i : Nat) (m : Msg), LanesFree s [] [u.a] → NotHeld s → let x := s.cx.rs (u.b.setWidth 3)
    fld x 127 126 = 3 → fld x 95 64 ≠ 0 → (∃ j, j < 32 ∧ s.lane u j = true) → s.me.eligible s.me.blk.hold (fld x 125 123) = some (.queue i) →
    s.me.vol.rq[i]? = some m →
    Completes (.vmovStreamRead u) s (fun t => OnlyCore s t ∧ (mine s t).vol.rq = s.me.vol.rq.eraseIdx i ∧ Past u s.cx (here s t) ∧
      fld ((here s t).rs (u.b.setWidth 3)) 95 64 = fld x 95 64 - 1 ∧
      ∀ j, j < 32 → vecEl 32 ((mine s t).rv s.me.blk.hold u.a) j =
        if s.lane u j then vecEl 32 (vecOfBytes m.payload) j else vecEl 32 (s.v u.a) j)))

/-! ### Page 3 (R277 to R301) -/

/-- R284: scalar loads from the own pool. R280, R286 to R288: vector loads from the own pool. -/
def Obligations.LoadsFromOwnPool : Prop :=
  (LoadsOwn .ldb 1 true ∧ LoadsOwn .ldh 2 true ∧ LoadsOwn .ldw 4 true ∧ LoadsOwn .ldd 8 true ∧
  LoadsOwn .ldbu 1 false ∧ LoadsOwn .ldhu 2 false ∧ LoadsOwn .ldwu 4 false) ∧
  (VectorLoadsOwn .vld (fun _ => 4) (fun u s e => s.addrM u + BitVec.ofNat 64 (4 * e)) regsM (fun _ => []) ∧
  VectorLoadsOwn .vlds elSize addrStrided (fun u => [u.b, u.c]) (fun _ => []) ∧
  VectorLoadsOwn .vldx elSize addrIndexed (fun u => [u.b]) (fun u => [u.c]))

/-- R285, R289: scalar and vector stores to the own pool: the address computed, the bytes stored, and nothing else of the pool. -/
def Obligations.StoresToOwnPool : Prop :=
  StoresOwn .stb 1 ∧ StoresOwn .sth 2 ∧ StoresOwn .stw 4 ∧ StoresOwn .std 8 ∧
  VectorStoresOwn .vst (fun _ => 4) (fun u s e => s.addrM u + BitVec.ofNat 64 (4 * e)) regsM (fun _ => []) ∧
  VectorStoresOwn .vsts elSize addrStrided (fun u => [u.b, u.c]) (fun _ => []) ∧
  VectorStoresOwn .vstx elSize addrIndexed (fun u => [u.b]) (fun u => [u.c])

/-- R281, R290: loads and stores that another tile, a home slice or a CXL port owns go there as requests, one to each owner: a load's register
is outstanding, a store has its journal entry, and no memory but the own pool's elements of a vector store has changed yet. -/
def Obligations.FarLoadsAndStores : Prop :=
  LoadsFar .ldb 1 ∧ LoadsFar .ldh 2 ∧ LoadsFar .ldw 4 ∧ LoadsFar .ldd 8 ∧ LoadsFar .ldbu 1 ∧ LoadsFar .ldhu 2 ∧ LoadsFar .ldwu 4 ∧
  StoresFar .stb 1 ∧ StoresFar .sth 2 ∧ StoresFar .stw 4 ∧ StoresFar .std 8 ∧
  VectorLoadsFar .vld (fun _ => 4) (fun u s e => s.addrM u + BitVec.ofNat 64 (4 * e)) regsM (fun _ => []) ∧
  VectorLoadsFar .vlds elSize addrStrided (fun u => [u.b, u.c]) (fun _ => []) ∧
  VectorLoadsFar .vldx elSize addrIndexed (fun u => [u.b]) (fun u => [u.c]) ∧
  VectorStoresFar .vst (fun _ => 4) (fun u s e => s.addrM u + BitVec.ofNat 64 (4 * e)) regsM (fun _ => []) ∧
  VectorStoresFar .vsts elSize addrStrided (fun u => [u.b, u.c]) (fun _ => []) ∧
  VectorStoresFar .vstx elSize addrIndexed (fun u => [u.b]) (fun u => [u.c])

/-- R279, R280: the traps of an own-pool access, in the order of its checks; of a vector access those of its lowest element that breaks a
rule. R205, R142, R213: a command without a request is a lease fault;
one that names an accumulator its context does not own is an accumulator-owner fault; an MMA of an empty slot is an array-state
fault. -/
def Obligations.AccessAndArrayTraps : Prop :=
  (OwnFaults .ldb 1 false ∧ OwnFaults .ldbu 1 false ∧ OwnFaults .stb 1 true ∧ OwnFaults .ldh 2 false ∧ OwnFaults .ldw 4 false ∧ OwnFaults .ldd 8 false ∧ OwnFaults .ldhu 2 false ∧ OwnFaults .ldwu 4 false ∧
  OwnFaults .sth 2 true ∧ OwnFaults .stw 4 true ∧ OwnFaults .std 8 true ∧ OwnFaults .ldk 8 false ∧ OwnFaults .mrgk 8 true ∧
  AtomFaults .aadd false ∧ AtomFaults .amin false ∧ AtomFaults .amax false ∧ AtomFaults .aand false ∧ AtomFaults .aor false ∧
  AtomFaults .axor false ∧ AtomFaults .aswap false ∧ AtomFaults .acas true ∧ AtomFaults .afadd false ∧
  VectorFaults .vld (fun _ => 4) (fun u s e => s.addrM u + BitVec.ofNat 64 (4 * e)) regsM (fun _ => []) false ∧
  VectorFaults .vlds elSize addrStrided (fun u => [u.b, u.c]) (fun _ => []) false ∧
  VectorFaults .vldx elSize addrIndexed (fun u => [u.b]) (fun u => [u.c]) false ∧
  VectorFaults .vst (fun _ => 4) (fun u s e => s.addrM u + BitVec.ofNat 64 (4 * e)) regsM (fun _ => []) true ∧
  VectorFaults .vsts elSize addrStrided (fun u => [u.b, u.c]) (fun _ => []) true ∧
  VectorFaults .vstx elSize addrIndexed (fun u => [u.b]) (fun u => [u.c]) true) ∧
  ((∀ (s : State) (u : VUnit), CanTrap s → s.me.blk.arr.req = false → (Free s u [u.b] [] → NotHeld s →
      ∀ i ∈ [Instr.mfmt u, .mldw u, .mma u, .mmas u, .mscl u], Completes i s (Trapped s 0x0F s.cx.pc (s.me.blk.lr.trv.setWidth 64))) ∧
    (Free s u [] [] → ∀ i ∈ [Instr.mzero u, .macc u], Completes i s (Trapped s 0x0F s.cx.pc (s.me.blk.lr.trv.setWidth 64)))) ∧
  (∀ (s : State) (u : VUnit), CanTrap s → s.me.blk.arr.req = true → Free s u [u.b] [] → NotHeld s → ¬ OwnsAcc s (u.a.toNat % 8) →
    ∀ i ∈ [Instr.mma u, .mmas u, .mscl u],
      Completes i s (Trapped s 0x10 (BitVec.ofNat 64 (u.a.toNat % 8)) (s.me.blk.lr.trv.setWidth 64))) ∧
  (∀ (s : State) (u : VUnit), CanTrap s → s.me.blk.arr.req = true → Free s u [u.b] [] → NotHeld s → OwnsAcc s (u.a.toNat % 8) →
    s.me.blk.arr.slotEmpty (u.a.toNat / 8 % 2) = true → ∀ i ∈ [Instr.mma u, .mmas u],
      Completes i s (Trapped s 0x11 0 (s.me.blk.lr.trv.setWidth 64))))

/-- R291, R292: atomics on the own pool: the old word in the register, the new one in memory; a comparison that fails writes nothing.
R293, R294: atomics at other owners, and reductions on device memory. -/
def Obligations.AtomicUnits : Prop :=
  (AtomicOwn .aadd false true (fun w old x _ => some ((old + x) % 2 ^ w)) ∧
  AtomicOwn .amin false true (fun w old x _ => some (if sInt w x < sInt w old then x else old)) ∧
  AtomicOwn .amax false true (fun w old x _ => some (if sInt w old < sInt w x then x else old)) ∧
  AtomicOwn .aand false true (fun _ old x _ => some (old &&& x)) ∧
  AtomicOwn .aor false true (fun _ old x _ => some (old ||| x)) ∧
  AtomicOwn .axor false true (fun _ old x _ => some (old ^^^ x)) ∧
  AtomicOwn .aswap false true (fun _ _ x _ => some x) ∧
  AtomicOwn .acas true true (fun _ old x y => if old = x then some y else none) ∧
  AtomicOwn .afadd false false (fun _ old x _ => some (add32 0 old x))) ∧
  (AtomicFar .aadd .add ∧ AtomicFar .amin .min ∧ AtomicFar .amax .max ∧ AtomicFar .aand .and ∧ AtomicFar .aor .or ∧
  AtomicFar .axor .xor ∧ AtomicFar .aswap .swap ∧ AtomicFar .acas .cas ∧ AtomicFar .afadd .fadd ∧
  Reduces .redadd .add ∧ Reduces .redfadd .fadd ∧ Reduces .redmax .max)

/-- R259, R295 to R299: fences, drains, the monitor and prefetch: each goes on where what it waits for has come, and waits elsewhere.
R298: a store to the line that a context waits on in MONW wakes it past its unit and disarms its monitor; a store to any other
line leaves it waiting. What FENCE.acq and OFENCE wait for is the model's reading (entry 40), and so is what PREF does of a miss (entry 39); that a woken
MONW goes on whatever its S is the model's choice (entry 68). -/
def Obligations.FencesAndTheMonitor : Prop :=
  ((∀ (s : State) (u : VUnit), Free s u [] [] → u.ord = 2 → (∀ e ∈ s.rim.grad, ∀ p ∈ e.2.popped, p.1 ≠ s.cur) →
    Completes (.fence u) s (CtxResult s u (fun c => { c with relNext := some (max (s.widened u.scope) (c.relNext.getD 0)) }))) ∧
  (∀ (s : State) (u : VUnit), Free s u [] [] → u.ord = 1 →
    (s.cx.outs.all (fun o => o.kind == .copy || o.kind == .heron || o.kind == .other) = true → Completes (.fence u) s (NoResult s u)) ∧
    (s.cx.outs.all (fun o => o.kind == .copy || o.kind == .heron || o.kind == .other) = false →
      Completes (.fence u) s (Waits s (.fence 1 (s.widened u.scope))))) ∧
  (∀ (s : State) (u : VUnit), Free s u [] [] → u.ord = 3 →
    (s.performed s.cur s.me.blk.hold s.nextId (s.widened u.scope) = true → (∀ e ∈ s.rim.grad, ∀ p ∈ e.2.popped, p.1 ≠ s.cur) →
      Completes (.fence u) s (NoResult s u)) ∧
    (s.performed s.cur s.me.blk.hold s.nextId (s.widened u.scope) = false → Completes (.fence u) s (Waits s (.fence 3 (s.widened u.scope))))) ∧
  (∀ (s : State) (u : VUnit), Free s u [] [] → (s.me.blk.ni.journal = [] → Completes (.jdrain u) s (NoResult s u)) ∧
    (s.me.blk.ni.journal ≠ [] → Completes (.jdrain u) s (Waits s .jdrain))) ∧
  (∀ (s : State) (u : VUnit), Free s u [] [] →
    (s.cx.ocnt = 0 → s.cx.outs.all (fun o => o.kind == .copy || o.kind == .heron || o.kind == .other) = true →
      Completes (.ofence u) s (NoResult s u)) ∧ (s.cx.ocnt ≠ 0 → Completes (.ofence u) s (Waits s .ofence))) ∧
  (∀ (s : State) (u : VUnit), Free s u (regsM u) [] → s.classify (s.addrM u) 1 = some (0, s.cur) →
    s.me.blk.lr.xb.toNat ≤ fld (s.addrM u) 20 0 → fld (s.addrM u) 20 0 < s.me.abase →
    Completes (.mona u) s (CtxResult s u (fun c => { c with mln := BitVec.ofNat 14 (fld (s.addrM u) 20 7), marm := true, mchg := false }))) ∧
  (∀ (s : State) (u : VUnit), Free s u [] [] →
    (s.cx.marm = false ∨ s.cx.mchg = true → Completes (.monw u) s (CtxResult s u (fun c => { c with marm := false }))) ∧
    (s.cx.marm = true → s.cx.mchg = false →
      Completes (.monw u) s (Away s id (fun c => { c with run := .waiting (.monw (2 * u.words)) })))) ∧
  (∀ (s : State) (u : VUnit), Free s u (regsM u) [] →
    (s.find { size := 1, align := 1, rd := false, wr := false, lock := none, spaces := 0xC } (s.addrM u) ≠ .miss →
      Completes (.pref u) s (NoResult s u)) ∧
    (s.find { size := 1, align := 1, rd := false, wr := false, lock := none, spaces := 0xC } (s.addrM u) = .miss →
      s.missesOf s.cur < 4 →
      (s.cluster (homeCluster s.cur)).reqs.length < 64 →
      Completes (.pref u) s (fun t => Past u s.cx (here s t) ∧ (∀ r, (here s t).rg r = s.cx.rg r) ∧ (mine s t).pool = s.me.pool ∧
        ∃ r, (t.cluster (homeCluster s.cur)).reqs = (s.cluster (homeCluster s.cur)).reqs ++ [r] ∧ r.addr = s.addrM u ∧ r.acc = 2 ∧
          r.pos = posOf s.cur ∧ r.taken = false)))) ∧
  (∀ (t : Tile) (c off : Nat) (b : Byte) (len : Nat), (t.ctx c).run = .waiting (.monw len) → (t.ctx c).marm = true → off < 2 ^ 21 →
    (off / 128 = (t.ctx c).mln.toNat → ((t.poolWrite off [b]).ctx c).run = .ready ∧ ((t.poolWrite off [b]).ctx c).marm = false ∧
      ((t.poolWrite off [b]).ctx c).pc = (t.ctx c).pc + BitVec.ofNat 64 len) ∧
    (off / 128 ≠ (t.ctx c).mln.toNat → (t.poolWrite off [b]).ctx c = t.ctx c))

/-! ### Page 2 (R203 to R223) -/

/-- R204, R207, R215 to R218: every array command is accepted where its tile has requested the lease, the queue has a place and its
operands pass their checks; what its image locks, and the format an MFMT leaves for the next commands. The lock holder 16 + seq mod 16 is the
model's reading (entry 51). -/
def Obligations.ArrayCommandsAreAccepted : Prop :=
  (∀ (s : State) (u : VUnit), let x := s.cx.rg u.b
    Free s u [u.b] [] → fld x 63 5 = 0 → fld x 3 3 = 0 → fld x 2 0 < 5 → CanCommand s (.mfmt (fld x 4 4 == 1) (BitVec.ofNat 3 (fld x 2 0))) →
    Completes (.mfmt u) s (fun t => Accepted s u (.mfmt (fld x 4 4 == 1) (BitVec.ofNat 3 (fld x 2 0))) t ∧
      (mine s t).blk.arr.afNext = (fld x 4 4 == 1) ∧ (mine s t).blk.arr.wfNext = BitVec.ofNat 3 (fld x 2 0))) ∧
  (∀ (s : State) (u : VUnit), let a := s.imageAddr u
    let w := u.a.toNat % 2
    let f := s.me.blk.arr.wfNext
    Free s u [u.b] [] → NotHeld s → ImageAt s a (planeSize f.toNat) false → s.me.freeLock.isSome = true →
    CanCommand s (.mldw (w == 1) (fld a 20 0) f) →
    Completes (.mldw u) s (fun t => Accepted s u (.mldw (w == 1) (fld a 20 0) f) t ∧ LockedBy (mine s t) false (32 + w) (fld a 20 0) (planeSize f.toNat))) ∧
  (∀ (keep : Bool) (s : State) (u : VUnit), let a := s.imageAddr u
    let c := ACmd.mma (u.a.toNat % 8) (fld a 20 0) (u.a.toNat / 8 % 2 == 1) s.me.blk.arr.afNext keep
    Free s u [u.b] [] → NotHeld s → OwnsAcc s (u.a.toNat % 8) → s.me.blk.arr.slotEmpty (u.a.toNat / 8 % 2) = false →
    ImageAt s a (actSize s.me.blk.arr.afNext) false → s.me.freeLock.isSome = true → CanCommand s c →
    Completes (if keep then .mma u else .mmas u) s (fun t => Accepted s u c t ∧
      LockedBy (mine s t) false (16 + (s.me.blk.arr.sqa + 1).toNat % 16) (fld a 20 0) (actSize s.me.blk.arr.afNext))) ∧
  (∀ (s : State) (u : VUnit), let d := u.a.toNat % 8
    Free s u [] [] → (s.me.blk.arr.acc d).ifl = false → CanCommand s (.mzero d) →
    Completes (.mzero u) s (fun t => Accepted s u (.mzero d) t ∧
      (mine s t).blk.arr.acc d = { vld := true, drt := true, ifl := true, own := BitVec.ofNat 3 s.me.blk.hold })) ∧
  (∀ (s : State) (u : VUnit), let d := u.a.toNat % 8
    let k := u.b.toNat % 8
    Free s u [] [] → OwnsAcc s d → OwnsAcc s k → CanCommand s (.macc d k) → Completes (.macc u) s (Accepted s u (.macc d k))) ∧
  (∀ (s : State) (u : VUnit), let c := ACmd.mscl (u.a.toNat % 8) ((s.cx.rg u.b).setWidth 32)
    Free s u [u.b] [] → OwnsAcc s (u.a.toNat % 8) → CanCommand s c → Completes (.mscl u) s (Accepted s u c))

/-- R205, R206, R214: LEASE requests and is granted a free lease at once, or answers whether it holds it; UNLEASE gives it up to the
next position that requests, once the queue is empty. Wherever they are enabled both complete: REQ is set or clear after them. -/
def Obligations.LeaseRequestAndRelease : Prop :=
  (∀ (s : State) (u : VUnit), s.cur < 30720 → Free s u [u.a] [] → (s.cluster (clusterOf s.cur)).holder = none →
    Completes (.lease u) s (fun t => (t.cluster (clusterOf s.cur)).holder = some (posOf s.cur) ∧ (mine s t).blk.arr.req = true ∧
      (∀ r, (here s t).rg r = if r = u.a ∧ r ≠ 0 then 1 else s.cx.rg r) ∧ Past u s.cx (here s t) ∧ (mine s t).pool = s.me.pool ∧
      ∀ q, q < 16 → q ≠ posOf s.cur → ∀ w : Fin 2, ((t.tile (tileAt (clusterOf s.cur) q)).blk.arr.slots.get w).st ≠ 1)) ∧
  (∀ (s : State) (u : VUnit) (p : Nat), s.cur < 30720 → Free s u [u.a] [] → (s.cluster (clusterOf s.cur)).holder = some p →
    Completes (.lease u) s (CoreResult s u (fun t => t.modArr fun a => { a with req := true })
      (fun c => c.wg u.a (if p = posOf s.cur then 1 else 0)))) ∧
  (∀ (s : State) (u : VUnit), Free s u [u.a] [] → ∃ t, exec (.lease u) s = .next t ∧ (mine s t).blk.arr.req = true ∧ Past u s.cx (here s t) ∧
    ∀ r, (here s t).rg r = if r = u.a ∧ r ≠ 0 then (if t.holds s.cur then 1 else 0) else s.cx.rg r) ∧
  (∀ (s : State) (u : VUnit), Free s u [] [] → s.me.blk.arr.req = false → Completes (.unlease u) s (NoResult s u)) ∧
  (∀ (s : State) (u : VUnit), Free s u [] [] → s.me.blk.arr.req = true → s.me.blk.arr.queue ≠ [] →
    Completes (.unlease u) s (CoreResult s u (fun t => t.modArr fun a => { a with req := false }) id)) ∧
  (∀ (s : State) (u : VUnit), s.cur < 30720 → Free s u [] [] → s.me.blk.arr.req = true → s.me.blk.arr.queue = [] →
    s.holds s.cur = true → Completes (.unlease u) s (fun t => (mine s t).blk.arr.req = false ∧ Past u s.cx (here s t) ∧
      (∀ w : Fin 2, ((mine s t).blk.arr.slots.get w).st = 0) ∧
      (t.cluster (clusterOf s.cur)).holder ≠ some (posOf s.cur))) ∧
  (∀ (s : State) (u : VUnit), Free s u [] [] → ∃ t, exec (.unlease u) s = .next t ∧ (mine s t).blk.arr.req = false ∧ Past u s.cx (here s t) ∧
    (∀ r, (here s t).rg r = s.cx.rg r) ∧ (mine s t).pool = s.me.pool ∧
    (s.me.blk.arr.req = true → s.me.blk.arr.queue = [] → ∀ w : Fin 2, ((mine s t).blk.arr.slots.get w).st = 0))

/-- R220 to R223: the array instructions that act in the tile itself. That MWT asks for no owner is the model's choice (entry 67). -/
def Obligations.AccumulatorMovesAndQueries : Prop :=
  (∀ (s : State) (u : VUnit), let k := u.b.toNat % 8
    let x := s.cx.rg u.c
    LanesFree s [u.c] [u.a] → s.enabled u = true → OwnsAcc s k → (s.me.blk.arr.acc k).ifl = false →
    ∃ v : Vec, Completes (.mrow u) s (VectorResult s u u.a v) ∧
      (u.ety = 0 → ∀ n, n < 32 → vecEl 32 v n = s.me.accEl k (512 * fld x 4 0 + 32 * fld x 8 5 + n)) ∧
      (u.ety ≠ 0 → ∀ n, n < 64 → vecEl 16 v n = convert 0 1 0 (s.me.accEl k (512 * fld x 4 0 + 64 * fld x 7 5 + n)) % 65536)) ∧
  (∀ (s : State) (u : VUnit), let d := u.a.toNat % 8
    Free s u [u.b] [] → NotHeld s → RelFree s s.cx.relNext → OwnsAcc s d → (s.me.blk.arr.acc d).ifl = false →
    ImageAt s (s.imageAddr u) (accSize u) true →
    Completes (.msta u) s (StoreResult s u [(fld (s.imageAddr u) 20 0, (List.range 16384).flatMap fun n =>
      if u.ety = 0 then leBytes 4 (s.me.accEl d n) else leBytes 2 (convert 0 1 0 (s.me.accEl d n)))] (fun c => { c with relNext := none }))) ∧
  (∀ (s : State) (u : VUnit), let d := u.a.toNat % 8
    let off := fld (s.imageAddr u) 20 0
    Free s u [u.b] [] → NotHeld s → (s.me.blk.arr.acc d).ifl = false → ImageAt s (s.imageAddr u) (accSize u) false →
    Completes (.mlda u) s (fun t => OnlyCore s t ∧ Past u s.cx (here s t) ∧ (∀ r, (here s t).rg r = s.cx.rg r) ∧
      (mine s t).blk.arr.acc d = { vld := true, drt := true, ifl := false, own := BitVec.ofNat 3 s.me.blk.hold } ∧
      (∀ n, n < 16384 → (mine s t).accEl d n =
        if u.ety = 0 then Mem.nat s.me.pool (off + 4 * n) 4 else convert 1 0 0 (Mem.nat s.me.pool (off + 2 * n) 2) % 2 ^ 32) ∧
      ∀ x, (x < s.me.accAddr d ∨ s.me.accAddr d + 65536 ≤ x) → Mem.read (mine s t).pool x = Mem.read s.me.pool x)) ∧
  (∀ (s : State) (u : VUnit), let d := u.a.toNat % 8
    let k := u.b.toNat % 8
    Free s u [] [] → s.me.blk.lr.pres.getLsbD 3 = true → OwnsAcc s d → OwnsAcc s k → s.me.blk.arr.mx = none →
    Completes (.mxch u) s (CoreResult s u (fun t => t.modArr fun a => { a with mx := some (d, k, u.xbits 1 0), mxBy := (s.me.blk.hold, s.cx.tsn) }) id)) ∧
  (∀ (s : State) (u : VUnit), Free s u [u.a] [] → Unlogged s → u.b = 0 → ∃ v : Word, Completes (.mqry u) s (ScalarResult s u u.a v) ∧
    ∀ k, k < 8 → let a := s.me.blk.arr.acc k
      fld v (8 * k + 7) (8 * k) = if k < s.me.nacc then a.vld.toNat * 128 + a.drt.toNat * 64 + a.ifl.toNat * 32 + a.own.toNat else 0) ∧
  (∀ (s : State) (u : VUnit), Free s u [u.a] [] → Unlogged s → u.b ≠ 0 → ∃ v : Word, Completes (.mqry u) s (ScalarResult s u u.a v) ∧
    let a := s.me.blk.arr
    fld v 63 32 = 0 ∧ fld v 31 24 = a.sqa.toNat ∧ fld v 23 16 = a.sqd.toNat ∧ fld v 12 8 = a.queue.length % 32 ∧
      v.getLsbD 2 = a.mx.isSome ∧ v.getLsbD 1 = a.req ∧ v.getLsbD 0 = s.holds s.cur) ∧
  (∀ (s : State) (u : VUnit), Free s u [u.a] [] → let m := u.ik.toNat % 256
    ((m = 0 → s.me.blk.arr.queue = []) ∧ ∀ k, k < 8 → m.testBit k = true → (s.me.blk.arr.acc k).ifl = false) →
    Completes (.mwt u) s (ScalarResult s u u.a s.me.accStatus))

/-! ### Page 4 (R323 to R353) -/

/-- R326 to R328, R332, R397: SEND, SENDV and SPAWN trap in an ordered launch and on a destination outside the gang rectangle, wait
for a place, and send the message that their operands give. R333, R334, R368: XSEND sends 128 bytes to the tile and place that the
slot of its number names, and the next slot is due; out of phase, out of turn, or at a slot that is not valid it is a slot fault
whose TRA says why. -/
def Obligations.MessagesAndSlotsAreSent : Prop :=
  (SendsMessage .send (fun u => u.b :: quadRegs u.a) (fun _ => []) msgClass (fun u => u.xbits 3 0) false (fun s u => s.relScope u) (fun s u => s.quadBytes u.a) ∧
  SendsMessage .sendv (fun u => [u.b]) (fun u => [u.a]) msgClass (fun u => u.xbits 3 0) false (fun s u => s.relScope u) (fun s u => vecBytes (s.v u.a)) ∧
  SendsMessage .spawn (fun u => u.b :: quadRegs u.a) (fun _ => []) (fun _ => 1) (fun _ => 15) true (fun s _ => some (max 5 (s.cx.relNext.getD 0)))
    (fun s u => s.quadBytes u.a)) ∧
  (∀ (s : State) (u : VUnit), Free s u [] [u.a] →
    let n := u.ik.toNat
    let e := s.me.slotEntry n
    let inside := s.me.blk.lr.gxo ≤ fld e 35 28 ∧ fld e 35 28 < s.me.blk.lr.gxo + s.me.blk.lr.gw ∧
      s.me.blk.lr.gyo ≤ fld e 27 20 ∧ fld e 27 20 < s.me.blk.lr.gyo + s.me.blk.lr.gh
    let valid := e.getLsbD 63 = true ∧ e.getLsbD 62 = false ∧ fld e 5 0 = 0 ∧ inside
    let fails := fun (r : Nat) => Completes (.xsend u) s (Trapped s 0x0E (BitVec.ofNat 64 (r * 2 ^ 56 + n % 1024)) (s.me.blk.lr.trv.setWidth 64))
    (CanTrap s → s.me.blk.lr.ord = false → fails 1) ∧
    (CanTrap s → s.me.blk.lr.ord = true → s.me.blk.sy.xph = false → fails 2) ∧
    (CanTrap s → s.me.blk.lr.ord = true → s.me.blk.sy.xph = true → n ≠ s.me.blk.sy.nxs → fails 3) ∧
    (CanTrap s → s.me.blk.lr.ord = true → s.me.blk.sy.xph = true → n = s.me.blk.sy.nxs → ¬ valid → fails 4) ∧
    (s.me.blk.lr.ord = true → s.me.blk.sy.xph = true → n = s.me.blk.sy.nxs → valid → s.rtxFull = true → Completes (.xsend u) s (Waits s s.rtxWait)) ∧
    (s.me.blk.lr.ord = true → s.me.blk.sy.xph = true → n = s.me.blk.sy.nxs → valid → s.rtxFull = false →
      (s.number s.cur (tileNo (fld e 35 28) (fld e 27 20)) (fld e 61 60 + 2)).isSome = true →
      Completes (.xsend u) s (fun t =>
        PacketSent s u (tileNo (fld e 35 28) (fld e 27 20)) (fld e 61 60 + 2) 128 s.cx.relNext
          (fun _ => .xwrite (128 * fld e 19 6) (vecBytes (s.v u.a)) s.me.blk.hold s.cx.tsn) t ∧
        (mine s t).blk.sy.nxs = s.me.blk.sy.nxs + 1)))

/-- R310, R329 to R331: RECV and RECVV take the eligible message that came first, into registers or into the pool; QLEN and DIVRD. -/
def Obligations.MessagesAreTaken : Prop :=
  Receives .recv (fun u => quadRegs u.a) (fun _ => []) (fun u h p => .fixed
    ((List.range 4).map (fun i => (u.a + BitVec.ofNat 6 i, BitVec.ofNat 64 (leNat ((p.drop (8 * i)).take 8)))) ++ (if u.c = 0 then [] else [(u.c, h)])) none) ∧
  Receives .recvv (fun _ => []) (fun u => [u.a]) (fun u h p => .fixed (if u.c = 0 then [] else [(u.c, h)]) (some (u.a, vecOfBytes p, BitVec.allOnes 128))) ∧
  ReceivesToPool .recvPool 64 32 ∧ ReceivesToPool .recvvPool 160 128 ∧
  (∀ (s : State) (u : VUnit), Free s u [u.a] [] → ∃ v : Word,
    Completes (.qlen u) s (CoreResult s u (fun t => if u.b = 1 then t.modNi fun k => { k with dov := false } else t) (fun c => c.wg u.a v)) ∧
    v.getLsbD 63 = s.me.blk.ni.dov ∧ fld v 47 40 = s.me.vol.taskQ.length % 256 ∧ fld v 39 32 = s.me.vol.notices.length % 256 ∧
    ∀ c, 2 ≤ c → c ≤ 5 → fld v (8 * (c - 2) + 7) (8 * (c - 2)) = (s.me.vol.rq.filter (fun m => m.cls == c)).length % 256) ∧
  (∀ (s : State) (u : VUnit), Free s u [u.c] [u.a] →
    (eldest (s.me.divertMatches s.me.blk.hold (u.xbits 2 0) (u.xbits 3 3 == 1)) = none → Completes (.divrd u) s (ScalarResult s u u.c 0)) ∧
    ∀ c k, eldest (s.me.divertMatches s.me.blk.hold (u.xbits 2 0) (u.xbits 3 3 == 1)) = some (.slot c k) → s.me.freeLock.isSome = true →
      s.me.slotLocked (.slot c k) = false →
      let m := s.me.peek s.fresh s.me.vol.rq (.slot c k)
      let els := [(s.me.slotAddr c k + 7, [Mem.read s.me.pool (s.me.slotAddr c k + 7) &&& 0x7F]), (ctxArea s.me.blk.hold + 128 * u.a.toNat, vecBytes (vecOfBytes m.2))]
      Completes (.divrd u) s (fun t => OnlyCore s t ∧ Past u s.cx (here s t) ∧ (∀ r, (here s t).rg r = if r = u.c ∧ r ≠ 0 then m.1 else s.cx.rg r) ∧
        (mine s t).vol = { s.me.vol with dix := s.me.vol.dix.filter (fun e => !(e.ctx == c && e.slot == k)) } ∧
        (∀ x, Mem.read (mine s t).pool x = lastStore els x (Mem.read s.me.pool x)) ∧
        (∀ j, j % 8 ≠ s.me.blk.hold % 8 → (mine s t).ctx j = metBy els (s.me.ctx j)) ∧
        (mine s t).blk.lr = s.me.blk.lr ∧ (mine s t).blk.arr = s.me.blk.arr ∧ (mine s t).blk.sy = s.me.blk.sy ∧ (mine s t).blk.en = s.me.blk.en))

/-- R325, R335 to R340: CPY, CPY2D and OVL are checked in order and posted; CPYQ reads the queue. -/
def Obligations.CopiesArePosted : Prop :=
  (∀ ovl : Bool, Copies (if ovl then .ovl else .cpy) ovl (fun u => [u.a, u.b, u.c])
    (fun s u => ⟨s.cx.rg u.b, [s.cx.rg u.b], 0⟩) (fun s u => ⟨s.cx.rg u.c, [s.cx.rg u.c], 0⟩) (fun _ _ => 1) (fun s u => (s.cx.rg u.a).toNat)
    (fun s u => [(lenOk (s.cx.rg u.a).toNat, s.cx.rg u.a)]) (fun s u => [s.cx.rg u.b, s.cx.rg u.c, s.cx.rg u.a])) ∧
  Copies .cpy2d false (fun u => [u.a, u.a + 1, u.b, u.c])
    (fun s u => ⟨s.cx.rg u.b, rowStarts (s.cx.rg u.b) (sInt 32 (fld (s.cx.rg (u.a + 1)) 63 32))
      (if fld (s.cx.rg u.a) 63 32 < 65536 then fld (s.cx.rg u.a) 63 32 else 0), sInt 32 (fld (s.cx.rg (u.a + 1)) 63 32)⟩)
    (fun s u => ⟨s.cx.rg u.c, rowStarts (s.cx.rg u.c) (sInt 32 (fld (s.cx.rg (u.a + 1)) 31 0))
      (if fld (s.cx.rg u.a) 63 32 < 65536 then fld (s.cx.rg u.a) 63 32 else 0), sInt 32 (fld (s.cx.rg (u.a + 1)) 31 0)⟩)
    (fun s u => fld (s.cx.rg u.a) 63 32) (fun s u => fld (s.cx.rg u.a) 31 0)
    (fun s u => [(lenOk (fld (s.cx.rg u.a) 31 0), BitVec.ofNat 64 (fld (s.cx.rg u.a) 31 0)),
      (decide (1 ≤ fld (s.cx.rg u.a) 63 32) && decide (fld (s.cx.rg u.a) 63 32 ≤ 65535), s.cx.rg u.a)])
    (fun s u => [s.cx.rg u.b, s.cx.rg u.c, BitVec.ofNat 64 (fld (s.cx.rg u.a) 31 0),
      BitVec.ofInt 64 (sInt 32 (fld (s.cx.rg (u.a + 1)) 63 32)), BitVec.ofInt 64 (sInt 32 (fld (s.cx.rg (u.a + 1)) 31 0))]) ∧
  (∀ (s : State) (u : VUnit), Free s u [u.a] [] → Unlogged s → Completes (.cpyq u) s (ScalarResult s u u.a
    (BitVec.ofNat 64 ((s.me.blk.en.copies.filter (fun k => k.ctx == s.me.blk.hold)).length * 2 ^ 16 + s.me.blk.en.copies.length * 2 ^ 8 +
      (if s.cx.tokens u.b = [] then 1 else 0)))))

/-- R341 to R350: GQPUSH, GQPOP, HQRY and HAPP send their request where their checks pass; a push above its window waits. -/
def Obligations.QueueAndHeronUnits : Prop :=
  (∀ (s : State) (u : VUnit) (i : Nat), let w := s.cx.rg u.b
    let q := fld w 10 0
    let wm := fld w 27 24 + 1
    let n := (s.me.blk.ni.win.toList.getD i (0, 0)).2.toNat
    Free s u [u.b] [u.a] → s.me.blk.lr.ord = false → fld w 63 28 = 0 → fld w 15 11 = 0 → NotHeld s → windowEntry s.me.blk.ni.win q = some i →
    (wm ≤ n → Completes (.gqpush u) s (Waits s (.window q wm))) ∧
    (n < wm → s.me.freeJournal.isSome = true → CanSend s (.slice (q % 24)) → Completes (.gqpush u) s (fun t =>
      FarStore s u (.slice (q % 24)) (.push q (fld w 23 16) wm s.me.blk.lr.rank (s.v u.a)) t ∧ (here s t).ocnt = s.cx.ocnt + 1 ∧
      (mine s t).blk.ni.win.toList.getD i (0, 0) = (BitVec.ofNat 11 q, BitVec.ofNat 5 (n + 1))))) ∧
  (∀ (s : State) (u : VUnit), CanTrap s → Free s u [u.b] [u.a] →
    (s.me.blk.lr.ord = true → Completes (.gqpush u) s (Trapped s 0x0D (s.cx.rg u.b) (s.me.blk.lr.trv.setWidth 64))) ∧
    (s.me.blk.lr.ord = false → (fld (s.cx.rg u.b) 63 28 ≠ 0 ∨ fld (s.cx.rg u.b) 15 11 ≠ 0) →
      Completes (.gqpush u) s (Trapped s 0x06 (s.cx.rg u.b) (s.me.blk.lr.trv.setWidth 64)))) ∧
  (∀ (s : State) (u : VUnit), let q := fld (s.cx.rg u.b) 10 0
    Free s u [u.b, u.c] [u.a] → NotHeld s → RoomFor s (.slice (q % 24)) → CanSend s (.slice (q % 24)) →
    Completes (.gqpop u) s (fun t => SentRequest s (.slice (q % 24)) (.pop q) t ∧ Past u s.cx (here s t) ∧ (here s t).g = s.cx.g ∧
      (mine s t).pool = s.me.pool ∧ (∀ e ∈ t.rim.grad, ∀ p ∈ e.2.popped, p.1 ≠ s.cur) ∧
      ∃ o, NewOut s t o ∧ o.gs = [u.c] ∧ o.vs = [u.a] ∧ o.kind = .dev ∧ o.need = 1)) ∧
  (∀ (s : State) (u : VUnit) (h : Head) (off qoff area : Nat) (ps : List (Nat × Owner × Nat)) (hits : List Nat),
    let w := s.cx.rg u.a
    let np := fld w 49 48 + 1
    Free s u [u.a, u.b, u.c] [] → s.me.blk.lr.ord = false → NotHeld s →
    s.ownOperand (s.cx.rg u.b) 64 64 false = .inr off → s.me.head off = some h → fld w 63 50 = 0 → fld w 31 21 = 0 →
    s.ownOperand (s.cx.rg u.c) (2 * h.dim) 128 false = .inr qoff →
    s.ownOperand (BitVec.ofNat 64 (fld w 20 0)) (np * 256 * h.recSize) 128 true = .inr area → s.me.lockHit false qoff (2 * h.dim) = false →
    s.headPages h ((List.range np).map (fun i => fld w 47 32 + i)) = .all ps hits → s.me.blk.en.queries.length < 4 → s.me.freeLock.isSome = true →
    (∀ e ∈ ps, (∃ k ∈ s.me.blk.ni.send, k.peer = ownerCode e.2.1 ∧ k.cls = 6) ∧ s.closing s.cur (ownerCode e.2.1) 6 = false) →
    Completes (.hqry u) s (fun t => Past u s.cx (here s t) ∧ (here s t).g = s.cx.g ∧ (mine s t).pool = s.me.pool ∧
      ∃ o, NewOut s t o ∧ o.gs = [u.a] ∧ o.kind = .heron ∧
        ((ps.map (fun e => h.units e.1)).foldl (fun a b => a + b) 0 = 0 → o.need = 0 ∧ o.how = .fixed [(u.a, heronTokenWord 0 0 0)] none) ∧
        ((ps.map (fun e => h.units e.1)).foldl (fun a b => a + b) 0 ≠ 0 → o.need = 1 ∧
          ∃ q, (mine s t).blk.en.queries = s.me.blk.en.queries ++ [q] ∧ q.tok = u.a ∧ q.base = h.base ∧ q.area = fld w 20 0 ∧
            q.q = Mem.bytes s.me.pool qoff (2 * h.dim) ∧ q.left = (ps.map (fun e => h.units e.1)).foldl (fun a b => a + b) 0 ∧
            LockedBy (mine s t) true (34 + q.idx) (fld w 20 0) (np * 256 * h.recSize) ∧
            (q.waits = false → s.me.vol.replay = none → ∀ e ∈ ps, ∀ n, n < h.units e.1 → ∃ p ∈ t.net, p.dst = e.2.1.home ∧ p.cls = 6 ∧ p.stage = .queued ∧
              ∃ r, p.body = .req r ∧ r.op = .scan q.id e.2.2 e.1 n ∧ r ∈ (mine s t).blk.ni.reqs)))) ∧
  (∀ (s : State) (u : VUnit) (h : Head) (off roff : Nat) (o : Owner) (pa j : Nat),
    let pos := fld (s.cx.rg u.a) 31 0
    let b := pa + (h.place pos).2.2
    Free s u [u.a, u.b, u.c] [] → s.me.blk.lr.ord = false → NotHeld s →
    s.ownOperand (s.cx.rg u.b) 64 64 false = .inr off → s.me.head off = some h → fld (s.cx.rg u.a) 63 32 = 0 →
    s.ownOperand (s.cx.rg u.c) (4 * h.dim) 128 false = .inr roff → s.headPage (h.page (h.place pos).1) true = .at o pa j →
    s.me.freeLock.isSome = true → s.me.lockHit false roff (4 * h.dim) = false → s.me.freeJournal.isSome = true → CanSend s o →
    Completes (.happ u) s (FarStore s u o (.append (h.place pos).2.1 pos h.base.toNat
      [(b, Mem.bytes s.me.pool roff (2 * h.dim)), (b + 1024, Mem.bytes s.me.pool (roff + 2 * h.dim) (2 * h.dim))])))

/-! ### Page 5 (R373 to R388) -/

/-- R374 to R376, R378, R379, R429: a TSC fills an entry and answers a request, invalidates entries, reads an entry, the oldest
request or a generation, and advances a generation. R364 to R369, R381 to R388: range locks, pending membership, format contexts,
schedules, decay classes and hop counts. The model's own, by the log: how DCLS reaches the tiles and the home slices (entry 43), and that
a lock entry which is not valid reads 0 (entry 68). -/
def Obligations.TlbAndTableUnits : Prop :=
  ((∀ (s : State) (u : VUnit), let w := s.cx.rg u.b
    let k := s.cur - 30720
    OnTsc s → Free s u [u.a, u.a + 1, u.b] [] → tlbpOk w = true →
    (selOp w = 0 → Completes (.tlbp u) s (CtxResult s u (fun c =>
      (c.wg u.a ((s.tlb k (selKind w) (selPos w)).entry (selIdx w)).1).wg (u.a + 1) ((s.tlb k (selKind w) (selPos w)).entry (selIdx w)).2))) ∧
    (selOp w = 2 → Completes (.tlbp u) s (CtxResult s u (fun c =>
      (c.wg u.a ((Tbl.get (s.cluster k).gent (selAsid w) 0).setWidth 64)).wg (u.a + 1) 0))) ∧
    (selOp w = 1 → (s.cluster k).reqs.find? (fun r => !r.taken) = none → Completes (.tlbp u) s (Waits s .requests)) ∧
    (selOp w = 1 → ∀ r, (s.cluster k).reqs.find? (fun r => !r.taken) = some r → Completes (.tlbp u) s (fun t =>
      Past u s.cx (here s t) ∧ here s t = { (s.cx.wg u.a r.addr).wg (u.a + 1) r.word with pc := (here s t).pc, run := (here s t).run } ∧
      (t.cluster k).reqs = ((s.cluster k).takeReq r.slot).reqs ∧ ∀ j, j ≠ s.cur → t.tile j = s.tile j))) ∧
  (∀ (s : State) (u : VUnit), let w := s.cx.rg u.b
    let a := s.cx.rg u.a
    let k := s.cur - 30720
    OnTsc s → Free s u [u.a, u.b] [] → tlbiOk w a = true → Completes (.tlbi u) s (fun t => Past u s.cx (here s t) ∧ (here s t).g = s.cx.g ∧
      (∀ kind p, kind < 3 → p < 16 → t.tlb k kind p =
        if (selKind w = 3 ∨ selKind w = kind) ∧ (kind = 2 ∨ w.getLsbD 23 = true ∨ p = selPos w) then (s.tlb k kind p).kill (tlbiNames w a)
        else s.tlb k kind p) ∧
      (∀ j, (t.tile j).pool = (s.tile j).pool) ∧ ∀ j, j ≠ s.cur → (∀ p, p < 16 → j ≠ tileAt k p) → t.tile j = s.tile j)) ∧
  (∀ (s : State) (u : VUnit), let w := s.cx.rg u.b
    let k := s.cur - 30720
    let w0 := s.cx.rg u.a
    let w1 := s.cx.rg (u.a + 1)
    OnTsc s → Free s u [u.a, u.a + 1, u.b] [] →
    (∀ n, twMode w < 2 → twRes w = 0 → twKind w ≠ 3 → entryOk60 w0 w1 = true → (s.tlb k (twKind w) (twPos w)).fill (twKind w) w0 w1 = some n →
      Completes (.tlbw u) s (fun t => Past u s.cx (here s t) ∧ (here s t).g = s.cx.g ∧ t.tlb k (twKind w) (twPos w) = n ∧
        (t.cluster k).reqs = if twMode w = 0 then (s.cluster k).reqs
          else (s.cluster k).reqs.filter (fun q => !(q.slot == twReq w && (s.cluster k).reqs.any (fun r => r.slot == twReq w && r.acc != 3))))) ∧
    (∀ r, twMode w = 3 → (twRes w = 1 ∨ twRes w = 2) → twKind w ≠ 3 →
      (s.cluster k).reqs.find? (fun r => r.slot == twReq w && r.acc != 3) = some r → r.acc ≠ 2 → r.kind ≠ 1 → r.pos < 16 →
      let core := tileAt k r.pos
      s.onSlot core r.ctx r.slot = true → fld (s.tile core).blk.lr.upv 20 0 ≠ 0 → ((s.tile core).ctx r.ctx).upCause = 0 →
      ((s.tile core).ctx r.ctx).nest = false →
      Completes (.tlbw u) s (fun t => Past u s.cx (here s t) ∧ (t.cluster k).reqs = (s.cluster k).reqs.filter (fun q => q.slot != r.slot) ∧
        (t.tile core).ctx r.ctx = { (s.tile core).ctx r.ctx with
          epc := ((s.tile core).ctx r.ctx).pc, tra := r.addr, pc := BitVec.ofNat 64 (fld (s.tile core).blk.lr.upv 20 0), run := .ready,
          upGone := false, ups := BitVec.ofNat 64 ((twRes w + 1) * 256 + 1) })) ∧
    (twMode w = 2 → twRes w = 1 ∨ twRes w = 2 → twKind w ≠ 1 → twKind w ≠ 3 → (s.number s.cur (tileAt k (twPos w)) 1).isSome = true →
      Completes (.tlbw u) s (fun t => Past u s.cx (here s t) ∧ ∃ p ∈ t.net, p.src = .pool s.cur ∧ p.dst = .pool (tileAt k (twPos w)) ∧ p.cls = 1 ∧
        p.stage = .queued ∧ p.body = .notice { ctx := twCtx w, tag := twTag w, ans := BitVec.ofNat 8 (twRes w + 1), asid := BitVec.ofNat 12 (fld w0 11 0), gen := BitVec.ofNat 4 (fld w0 15 12) }))) ∧
  (∀ (s : State) (u : VUnit), let a := fld (s.cx.rg u.b) 11 0
    let k := s.cur - 30720
    let n : BitVec 4 := Tbl.get (s.cluster k).gent a 0 + 1
    OnTsc s → Free s u [u.a, u.b] [] → fld (s.cx.rg u.b) 63 12 = 0 → Completes (.asidg u) s (fun t => Past u s.cx (here s t) ∧
      (∀ r, (here s t).rg r = if r = u.a ∧ r ≠ 0 then n.setWidth 64 else s.cx.rg r) ∧
      (∀ b, Tbl.get (t.cluster k).gent b 0 = if b = a then n else Tbl.get (s.cluster k).gent b 0) ∧
      ∀ kind p, kind < 3 → p < 16 → t.tlb k kind p = if n = 0 then (s.tlb k kind p).kill (fun _ _ => true) else s.tlb k kind p))) ∧
  ((∀ (s : State) (u : VUnit), s.cur < 30720 → Free s u [u.a, u.b] [] → Unlogged s → fld (s.cx.rg u.b) 63 21 = 0 →
    ∃ v, Completes (.rlq u) s (ScalarResult s u u.a v) ∧
      let n := (s.cx.rg u.b).toNat / 32
      (v = 0 ↔ ∀ l, some l ∈ s.me.blk.en.locks.toList → l.covers n n = false) ∧
      (∀ (i : Nat) (l : Lock), s.me.blk.en.locks.toList[i]? = some (some l) → l.covers n n = true →
        (∀ j, j < i → ∀ m, s.me.blk.en.locks.toList[j]? = some (some m) → m.covers n n = false) → v = l.word)) ∧
  (∀ (s : State) (u : VUnit), s.cur < 30720 → Free s u [u.a] [] → Unlogged s → Completes (.rlqImm u) s (ScalarResult s u u.a
    (match s.me.blk.en.locks.toList.getD u.ik.toNat none with
      | some l => BitVec.ofNat 64 (2 ^ 47 + (if l.wl then 2 ^ 46 else 0) + l.src.toNat * 2 ^ 40 + l.last.toNat * 2 ^ 16 + l.first.toNat)
      | none => 0))) ∧
  (∀ (s : State) (u : VUnit), let k := tileAt (s.cur - 30720) (fld (s.cx.rg u.a) 3 0)
    OnTsc s → Free s u [u.a, u.b] [] → fld (s.cx.rg u.a) 63 4 = 0 → fld (s.cx.rg u.b) 63 48 = 0 → Completes (.rcls u) s (fun t =>
      Past u s.cx (here s t) ∧ (here s t).g = s.cx.g ∧ (t.tile k).pool = (s.tile k).pool ∧ (∀ j, j ≠ s.cur → j ≠ k → t.tile j = s.tile j) ∧
      ∀ i : Fin 48, (t.tile k).blk.en.locks.get i = if (s.cx.rg u.b).getLsbD i.val then none else (s.tile k).blk.en.locks.get i)) ∧
  (∀ (s : State) (u : VUnit), let x := s.cx.rg u.a
    s.cur < 30720 → Free s u [u.a] [] → fld x 63 2 = 0 → Completes (.bmsk u) s (CoreResult s u (fun t => t.modSy fun k =>
      { k with memP := setFld k.memP u.ik.toNat u.ik.toNat (fld x 0 0), drnP := setFld k.drnP u.ik.toNat u.ik.toNat (fld x 1 1) }) id)) ∧
  (∀ (s : State) (u : VUnit), let k := tileAt (s.cur - 30720) (fld (s.cx.rg u.a) 3 0)
    let x := s.cx.rg u.b
    OnTsc s → Free s u [u.a, u.b] [] → fld (s.cx.rg u.a) 63 4 = 0 → fld x 63 5 = 0 → fld x 3 3 = 0 → fld x 2 0 < 5 →
    (s.tile k).blk.arr.queue = [] → Completes (.fctx u) s (fun t => Past u s.cx (here s t) ∧ (here s t).g = s.cx.g ∧
      t.tile k = (s.tile k).modArr fun a => { a with
        af := x.getLsbD 4, wf := BitVec.ofNat 3 (fld x 2 0), afNext := x.getLsbD 4, wfNext := BitVec.ofNat 3 (fld x 2 0) })) ∧
  (∀ (s : State) (u : VUnit) (i : Nat) (w0 w1 : Word) (o : Owner) (pa : Nat) (st : Bool) (j : Option Nat), let a := s.cx.rg u.b
    let k := clusterOf s.cur
    s.cur < 30720 → Free s u [u.b] [] → NotHeld s → s.me.blk.lr.pres.getLsbD 3 = true → fld a 63 62 = 2 → (s.classify a 256).isSome = true →
    a.toNat % 256 = 0 → (∀ d e n, s.me.blk.arr.mx = some (d, e, n) → n ≠ u.a.toNat) →
    (s.cluster k).mtlb.hit a (s.asidGen s.cur).1 (s.asidGen s.cur).2 = some (i, w0, w1) → entryRd w1 = true →
    (RoomFor s o → s.farPlace 2 (entryPa w1 a) (entryHs w1) (entrySt w1) = .at (.far o pa st) j →
      CanSend s o → s.me.outKind .dev < 8 → Completes (.psch u) s (fun t => SentRequest s o (.read [(pa, 0)] 256) t ∧ (here s t).g = s.cx.g ∧
        (here s t).pc = s.cx.pc ∧ (mine s t).pool = s.me.pool ∧
        ∃ x, NewOut s t x ∧ (i, x.id) ∈ (t.cluster k).mtlb.pins ∧ x.how = .schedule u.a.toNat a ∧ HoldsFor s u x.id t))) ∧
  (∀ (s : State) (u : VUnit), s.cur < 30720 → Free s u [u.a, u.b] [] →
    (s.cx.rg u.b = 0 → Completes (.xsch u) s (CoreResult s u (fun t => (t.unlock 40).modSy fun k => { k with xtb := 0, xcnt := 0 }) id)) ∧
    (∀ off j, let n := (s.cx.rg u.b).toNat
      0 < n → n ≤ 1024 → fld (s.cx.rg u.a) 63 21 = 0 →
      s.find { size := 8 * n, align := 128, rd := true, wr := false, lock := some false, spaces := 0x1, ord := false } (s.cx.rg u.a) = .at (.own off) j →
      (s.me.unlock 40).freeLock.isSome = true →
      Completes (.xsch u) s (fun t => CoreResult s u (fun t => ((t.unlock 40).lock false 40 off (8 * n)).modSy fun k => { k with xtb := off, xcnt := n }) id t ∧
        LockedBy (mine s t) false 40 off (8 * n)))) ∧
  (∀ (s : State) (u : VUnit), let x := s.cx.rg u.a
    let y := s.cx.rg u.b
    let k := s.cur - 30720
    OnTsc s → Free s u [u.a, u.b] [] → fld x 7 4 = 0 → fld x 63 13 = 0 → fld x 3 0 ≠ 0 → fld x 12 8 ≤ 22 → fld y 63 32 = 0 →
    (s.clusterPart k = none → Completes (.dcls u) s (NoResult s u)) ∧
    ∀ p, s.clusterPart k = some p → s.me.blk.ni.send.length ≤ 104 →
      (∀ q, q ∈ s.net ∨ q ∈ s.me.blk.ni.rtx → q.src = .pool s.cur → q.body ≠ .close 6) →
      Completes (.dcls u) s (fun t => here s t = { s.cx with run := .waiting (.slices (2 * u.words)) } ∧ t.rim = s.rim ∧
        (∀ i, i < 24 → ∃ q ∈ t.net, q.src = .pool s.cur ∧ q.dst = .slice i ∧ q.cls = 6 ∧ q.stage = .queued ∧
          ∃ r, q.body = .req r ∧ r.op = .decay p (fld x 3 0) (fld x 12 8) (y.setWidth 32) ∧ r ∈ (mine s t).blk.ni.reqs) ∧
        ∀ q, q < 16 → (t.tile (tileAt k q)).vol.decayA = (s.tile (tileAt k q)).vol.decayA ∧
          Tbl.get (t.tile (tileAt k q)).vol.decayP (32 * fld x 3 0 + fld x 12 8) 0x3F800000 = y.setWidth 32)) ∧
  (∀ (s : State) (u : VUnit), let w := s.cx.rg u.b
    s.cur < 30720 → Free s u [u.a, u.b] [] → Unlogged s → fld w 63 16 = 0 → fld w 15 8 ≤ 191 → fld w 7 0 ≤ 159 →
    Completes (.latq u) s (ScalarResult s u u.a (BitVec.ofNat 64 (s.me.vol.mapg.toNat * 2 ^ 32 + s.hops s.cur (tileNo (fld w 15 8) (fld w 7 0)))))))

/-! ### Page 6 (R407 to R423) -/

/-- R399, R409: ARV, WTB, BARQ and PRB on a domain of which the tile is an active member; on another they are illegal instructions.
R71, R391, R410 to R414: clock, slack, validity word, the end of wrap-up, the step request and the step's value. The readings are
stated for a tile that neither logs nor replays. That an arrival carries the tile's request and overflow bit as they stand at its ARV is
the model's reading (entry 29). -/
def Obligations.BarrierTimeAndStepUnits : Prop :=
  ((∀ (s : State) (u : VUnit), let n := u.b.toNat
    n < 16 → s.me.blk.sy.mem.getLsbD n = true →
    (Free s u [] [] → s.me.blk.sy.arr.getLsbD n = true → Completes (.arv u) s (NoResult s u)) ∧
    (Free s u [] [] → s.me.blk.sy.arr.getLsbD n = false → Completes (.arv u) s (CoreResult s u (fun t => t.modSy fun k => { k with
      arr := k.arr ||| (1 <<< n), arvs := k.arvs ++ [(n, s.me.blk.hold, s.nextId)],
      stqC := if n = 0 then k.stqC || k.stq else k.stqC, ovtC := if n = 0 then k.ovtC || k.ovt else k.ovtC,
      stq := if n = 0 then false else k.stq, ovt := if n = 0 then false else k.ovt }) id)) ∧
    (Free s u [u.a] [] → s.me.blk.sy.arr.getLsbD n = true → Completes (.wtb u) s (Away s id (fun c => { c with run := .waiting (.wtb n u.a (2 * u.words)) }))) ∧
    (Free s u [u.a] [] → s.me.blk.sy.arr.getLsbD n = false → Completes (.wtb u) s (ScalarResult s u u.a 0)) ∧
    (Free s u [u.a] [] → ∃ v : Word, Completes (.barq u) s (ScalarResult s u u.a v) ∧ v.getLsbD 63 = true ∧
      v.getLsbD 62 = s.me.blk.sy.drn.getLsbD n ∧ v.getLsbD 61 = s.me.blk.sy.arr.getLsbD n ∧ v.getLsbD 60 = s.me.blk.sy.epo.getLsbD n ∧
      fld v 59 0 = (s.me.blk.sy.pbc.toList.getD n 0).toNat) ∧
    (∀ g k, Free s u [u.a] [] → s.me.blk.lr.gang = some g → s.gang? g = some k → s.me.vol.replay = none → Completes (.prb u) s (fun t =>
      Past u s.cx (here s t) ∧ (here s t).g = s.cx.g ∧ (mine s t).pool = s.me.pool ∧
      ∃ o, NewOut s t o ∧ o.gs = [u.a] ∧ o.kind = .other ∧ o.need = 1 ∧
        t.gang? g = some { k with probes := Tbl.put k.probes n (Tbl.get k.probes n [] ++
          (if (Tbl.get k.probes n []).any (fun q => q.tile == s.cur && q.ctx == s.me.blk.hold && q.count == s.me.blk.ct.ucnt) then []
            else [{ tile := s.cur, ctx := s.me.blk.hold, count := s.me.blk.ct.ucnt, left := s.members s.cur n, sum := 0, black := false }])) }))) ∧
  (∀ (s : State) (u : VUnit), CanTrap s → s.me.blk.sy.mem.getLsbD u.b.toNat = false →
    (Free s u [] [] → Completes (.arv u) s (Trapped s 0x01 s.cx.pc (s.me.blk.lr.trv.setWidth 64))) ∧
    (Free s u [u.a] [] → ∀ i ∈ [Instr.wtb u, .barq u, .prb u], Completes i s (Trapped s 0x01 s.cx.pc (s.me.blk.lr.trv.setWidth 64))))) ∧
  ((∀ (s : State) (u : VUnit), Free s u [u.a] [] → Unlogged s → Completes (.gett u) s (ScalarResult s u u.a (s.timeAt s.cur))) ∧
  (∀ (s : State) (u : VUnit), let x := if u.ik.toNat = 0 then s.me.blk.lr.brt else s.me.blk.lr.dln
    Free s u [u.a] [] → Unlogged s →
    (s.me.blk.lr.dln = 0xFFFFFFFFFFFFFFFF → Completes (.slack u) s (ScalarResult s u u.a 0x7FFFFFFFFFFFFFFF)) ∧
    (s.me.blk.lr.dln ≠ 0xFFFFFFFFFFFFFFFF → ∃ v : Word, Completes (.slack u) s (ScalarResult s u u.a v) ∧
      v.toInt = max (-(2 ^ 63)) (min (2 ^ 63 - 1) ((x.toNat : Int) - (s.timeAt s.cur).toNat)))) ∧
  (∀ (s : State) (u : VUnit), s.cx.diverted = true →
    (Free s u [] [] → Completes (.valid u) s (CoreResult s u (fun t => t.modLr fun r => { r with vwd := r.vwd ||| (1 <<< u.ik.toNat) }) id)) ∧
    (Free s u [u.b] [] → fld (s.cx.rg u.b) 63 6 = 0 →
      Completes (.validReg u) s (CoreResult s u (fun t => t.modLr fun r => { r with vwd := r.vwd ||| (1 <<< (s.cx.rg u.b).toNat) }) id)) ∧
    (Free s u [] [] → Completes (.brimx u) s
      (Away s (fun t => t.modNi fun k => { k with lrc := k.lrc + BitVec.ofNat 32 s.cx.apnd.length })
        (fun c => { c with tsn := c.tsn + 1, apnd := [], marm := false, run := .ending true })))) ∧
  (∀ (s : State) (u : VUnit), CanTrap s → s.cx.diverted = false →
    (Free s u [] [] → ∀ i ∈ [Instr.valid u, .brimx u], Completes i s (Trapped s 0x01 s.cx.pc (s.me.blk.lr.trv.setWidth 64))) ∧
    (Free s u [u.b] [] → Completes (.validReg u) s (Trapped s 0x01 s.cx.pc (s.me.blk.lr.trv.setWidth 64)))) ∧
  (∀ (s : State) (u : VUnit), Free s u [u.b] [] →
    (fld (s.cx.rg u.b) 63 1 = 0 → Completes (.step u) s (CoreResult s u (fun t => t.modSy fun k =>
      { k with stq := true, ovt := k.ovt || (s.cx.rg u.b).getLsbD 0 }) id)) ∧
    (CanTrap s → fld (s.cx.rg u.b) 63 1 ≠ 0 → Completes (.step u) s (Trapped s 0x01 s.cx.pc (s.me.blk.lr.trv.setWidth 64)))) ∧
  (∀ (s : State) (u : VUnit), Free s u [u.a] [] →
    (u.ik = 0 → Completes (.gstep u) s (fun t => Past u s.cx (here s t) ∧ (here s t).g = s.cx.g ∧
      ∃ o, NewOut s t o ∧ o.gs = [u.a] ∧ o.how = .gst u.a ∧ o.kind = .other ∧ o.need = 1)) ∧
    (u.ik ≠ 0 → let k := s.me.blk.sy
      Completes (.gstep u) s (ScalarResult s u u.a ((if k.stq || k.stqC then 2 else 0) + (if k.ovt || k.ovtC then 1 else 0))))))

/-- R415 to R420: stamped words in the own pool: the register value read and decayed, the word stored, added or merged; a stamped
fault writes nothing. Elsewhere they are requests to the owner (R416): LDK and VLDK hold their context until the word has landed, STK is a store,
ADK, VADK and MRGK carry the value and the step. R130 to R132: what reading, adding and merging make of a word, field by field; its value in the
spec's worked example, in the sums that saturate and in one that flushes. -/
def Obligations.StampedWordsInOwnPool : Prop :=
  (∀ (s : State) (u : VUnit), let a := s.addrM u
    Free s u (u.a :: regsM u) [] → NotHeld s → OwnPlace s a 8 false →
    let r := stampRead (decayEntry s.me.vol.decayA) (Mem.nat s.me.pool (fld a 20 0) 8) (fld s.me.blk.lr.steps 23 0)
    (∀ v, r = .ok v → LoadRel s u → Completes (.ldk u) s (ScalarResult s u u.a (BitVec.ofNat 64 v))) ∧
    (CanTrap s → LoadRel s u → r = .age → Completes (.ldk u) s (Trapped s 0x14 a (s.me.blk.lr.trv.setWidth 64)))) ∧
  (∀ (s : State) (u : VUnit), let a := s.addrM u
    LanesFree s (regsM u) [u.a] → NotHeld s → LoadRel s u → OwnPlace s a 8 false → OwnOk s (fld a 20 0) 256 false → s.lanes u ≠ [] →
    (∀ i ∈ s.lanes u, stampRead (decayEntry s.me.vol.decayA) (Mem.nat s.me.pool (fld a 20 0 + 8 * i) 8) (fld s.me.blk.lr.steps 23 0) ≠ .age) →
    ∃ v : Vec, Completes (.vldk u) s (VectorResult s u u.a v) ∧ ∀ i, i < 32 →
      if s.lane u i then stampRead (decayEntry s.me.vol.decayA) (Mem.nat s.me.pool (fld a 20 0 + 8 * i) 8) (fld s.me.blk.lr.steps 23 0) = .ok (vecEl 32 v i)
      else vecEl 32 v i = vecEl 32 (s.v u.a) i) ∧
  (∀ (s : State) (u : VUnit), let x := s.cx.rg u.a
    let a := s.addrM u
    Free s u (u.a :: regsM u) [] → NotHeld s → RelFree s (s.relScope u) → OwnPlace s a 8 true → fld x 63 38 = 0 →
    (x.getLsbD 37 = false → fld x 36 0 = 0) → Completes (.stk u) s (StoreResult s u [(fld a 20 0, leBytes 8
      (if x.getLsbD 37 then fld s.me.blk.lr.steps 23 0 * 2 ^ 40 + fld x 35 32 * 2 ^ 36 + 2 ^ 35 + fld x 36 36 * 2 ^ 33 + fld x 31 0 else 0))]
      (fun c => { c with relNext := none }))) ∧
  (∀ (s : State) (u : VUnit), let x := s.cx.rg u.a
    let a := s.addrM u
    let r := stampAdd (decayEntry s.me.vol.decayA) (Mem.nat s.me.pool (fld a 20 0) 8) (fld x 31 0) (fld s.me.blk.lr.steps 23 0) (fld x 35 32)
    Free s u (u.a :: regsM u) [] → NotHeld s → RelFree s (s.relScope u) → OwnPlace s a 8 true → fld x 63 36 = 0 →
    (∀ v, r = .ok v → Completes (.adk u) s (StoreResult s u [(fld a 20 0, leBytes 8 v)] (fun c => { c with relNext := none }))) ∧
    (CanTrap s → r = .age → Completes (.adk u) s (Trapped s 0x14 a (s.me.blk.lr.trv.setWidth 64)))) ∧
  (∀ (s : State) (u : VUnit) (n : Nat → Nat), let a := s.cx.rg u.b + u.io
    let y := s.cx.rg u.c
    LanesFree s [u.b, u.c] [u.a] → NotHeld s → RelFree s (s.relScope u) → OwnPlace s a 8 true → OwnOk s (fld a 20 0) 256 true → fld y 63 4 = 0 →
    s.lanes u ≠ [] → (∀ i ∈ s.lanes u, stampAdd (decayEntry s.me.vol.decayA) (Mem.nat s.me.pool (fld a 20 0 + 8 * i) 8) (vecEl 32 (s.v u.a) i)
      (fld s.me.blk.lr.steps 23 0) (fld y 3 0) = .ok (n i)) →
    Completes (.vadk u) s (StoreResult s u ((s.lanes u).map (fun i => (fld a 20 0 + 8 * i, leBytes 8 (n i)))) (fun c => { c with relNext := none }))) ∧
  (∀ (s : State) (u : VUnit), let a := s.addrM u
    let r := stampMerge (decayEntry s.me.vol.decayA) (s.cx.rg u.a).toNat (Mem.nat s.me.pool (fld a 20 0) 8) (fld s.me.blk.lr.steps 23 0)
    Free s u (u.a :: regsM u) [] → NotHeld s → RelFree s (s.relScope u) → OwnPlace s a 8 true →
    (∀ v, r = .ok v → Completes (.mrgk u) s (StoreResult s u [(fld a 20 0, leBytes 8 v)] (fun c => { c with relNext := none }))) ∧
    (CanTrap s → r = .age → Completes (.mrgk u) s (Trapped s 0x14 a (s.me.blk.lr.trv.setWidth 64))) ∧
    (CanTrap s → r = .cls → Completes (.mrgk u) s (Trapped s 0x15 a (s.me.blk.lr.trv.setWidth 64)))) ∧
  (∀ (s : State) (u : VUnit) (o : Owner) (pa : Nat) (st : Bool) (h : Option Nat), let a := s.addrM u
    let x := s.cx.rg u.a
    let g := s.me.blk.lr.steps.setWidth 24
    Free s u (u.a :: regsM u) [] → NotHeld s → CanSend s o →
    (s.find stampRd a = .at (.far o pa st) h → RoomFor s o → Completes (.ldk u) s (fun t => Untouched s t ∧ SentRequest s o (.read [(pa, 0)] 8) t ∧
      ∃ k, NewOut s t k ∧ k.gs = [u.a] ∧ k.how = .stamp u.a g a ∧ HoldsFor s u k.id t)) ∧
    (s.find stampWr a = .at (.far o pa st) h → s.me.freeJournal.isSome = true → fld x 63 38 = 0 → (x.getLsbD 37 = false → fld x 36 0 = 0) →
      Completes (.stk u) s (FarStore s u o (.write [(pa, leBytes 8
        (if x.getLsbD 37 then g.toNat * 2 ^ 40 + fld x 35 32 * 2 ^ 36 + 2 ^ 35 + fld x 36 36 * 2 ^ 33 + fld x 31 0 else 0))]))) ∧
    (s.find stampRmw a = .at (.far o pa st) h → s.me.freeJournal.isSome = true → fld x 63 36 = 0 →
      Completes (.adk u) s (FarStore s u o (.stampAdd [(pa, 0, x.setWidth 32)] (BitVec.ofNat 4 (fld x 35 32)) g))) ∧
    (s.find stampRmw a = .at (.far o pa st) h → s.me.freeJournal.isSome = true →
      Completes (.mrgk u) s (FarStore s u o (.stampMerge pa x g)))) ∧
  (∀ (s : State) (u : VUnit) (ps : List Place) (hits : List Nat), let a := s.addrM u
    LanesFree s (regsM u) [u.a] → NotHeld s → LoadRel s u → s.lanes u ≠ [] → s.early { stampRd with size := 256 } a = none →
    s.findAll stampRd ((s.lanes u).map (laneAddr a)) = .all ps hits → s.me.outKind .dev < 8 → s.me.outKind .pool < 32 →
    let pe := ps.zip ((s.lanes u).map (fun i => 8 * i))
    ownersOf pe ≠ [] → ChannelsTo s pe → Completes (.vldk u) s (fun t => Untouched s t ∧
      ∃ k, NewOut s t k ∧ k.vs = [u.a] ∧ k.how = .vstamp u.a (s.me.blk.lr.steps.setWidth 24) (s.mask u) a ∧ k.need = (ownersOf pe).length ∧
        k.got = s.me.gather 8 (ownPart pe) ∧ HoldsFor s u k.id t ∧ SentToEach s pe (fun l => .read l 8) none (some k.id) t)) ∧
  (∀ (s : State) (u : VUnit) (ps : List Place) (hits : List Nat), let a := s.cx.rg u.b + u.io
    let y := s.cx.rg u.c
    LanesFree s [u.b, u.c] [u.a] → NotHeld s → fld y 63 4 = 0 → s.lanes u ≠ [] → s.early { stampRmw with size := 256 } a = none →
    s.findAll stampRmw ((s.lanes u).map (laneAddr a)) = .all ps hits → (∀ p ∈ ps, ∃ o pa st, p = .far o pa st) → s.me.freeJournal.isSome = true →
    let pe := ps.zip ((s.lanes u).map (fun i => (8 * i, BitVec.ofNat 32 (vecEl 32 (s.v u.a) i))))
    ChannelsTo s pe → Completes (.vadk u) s (fun t => Untouched s t ∧ Past u s.cx (here s t) ∧ (here s t).outs = s.cx.outs ∧ (here s t).relNext = none ∧
      ∃ j, (mine s t).blk.ni.journal = s.me.blk.ni.journal ++ [j] ∧ j.parts = (ownersOf pe).length ∧
        SentToEach s pe (fun l => .stampAdd l (BitVec.ofNat 4 (fld y 3 0)) (s.me.blk.lr.steps.setWidth 24)) (some j.id) none t)) ∧
  (∀ (table : Nat → Nat → Nat) (w x g c : Nat),
    let ahead := 2 ^ 23 ≤ (g + 2 ^ 24 - w / 2 ^ 40 % 2 ^ 24) % 2 ^ 24
    (w / 2 ^ 35 % 2 = 0 → stampRead table w g = .ok 0) ∧
    (w / 2 ^ 35 % 2 = 1 → ahead → stampRead table w g = .age ∧ stampAdd table w x g c = .age) ∧
    (w / 2 ^ 35 % 2 = 1 → ¬ ahead → (g + 2 ^ 24 - w / 2 ^ 40 % 2 ^ 24) % 2 ^ 24 = 0 ∨ w / 2 ^ 36 % 16 = 0 → stampRead table w g = .ok (w % 2 ^ 32)) ∧
    (∀ n, stampAdd table w x g c = .ok n → n / 2 ^ 40 = g % 2 ^ 24 ∧ n / 2 ^ 36 % 16 = (if w / 2 ^ 35 % 2 = 1 then w / 2 ^ 36 % 16 else c % 16) ∧
      n / 2 ^ 34 % 4 = 2 ∧ n / 2 ^ 33 % 2 = w / 2 ^ 33 % 2 ∧ n / 2 ^ 32 % 2 = 0)) ∧
  (∀ (table : Nat → Nat → Nat) (v w g : Nat), v < 2 ^ 64 →
    let age := fun (x : Nat) => (g + 2 ^ 24 - x / 2 ^ 40 % 2 ^ 24) % 2 ^ 24
    (v / 2 ^ 35 % 2 = 0 → stampMerge table v w g = .ok w) ∧
    (v / 2 ^ 35 % 2 = 1 → w / 2 ^ 35 % 2 = 0 → stampMerge table v w g =
      if 2 ^ 23 ≤ age v then .age else .ok (v - v / 2 ^ 34 % 2 * 2 ^ 34 - v / 2 ^ 32 % 2 * 2 ^ 32)) ∧
    (v / 2 ^ 35 % 2 = 1 → w / 2 ^ 35 % 2 = 1 →
      (v / 2 ^ 36 % 16 ≠ w / 2 ^ 36 % 16 → stampMerge table v w g = .cls) ∧
      (v / 2 ^ 36 % 16 = w / 2 ^ 36 % 16 → 2 ^ 23 ≤ age v ∨ 2 ^ 23 ≤ age w → stampMerge table v w g = .age) ∧
      ∀ n, stampMerge table v w g = .ok n → let k := if age v ≤ age w then v else w
        n / 2 ^ 40 = k / 2 ^ 40 % 2 ^ 24 ∧ n / 2 ^ 36 % 16 = k / 2 ^ 36 % 16 ∧ n / 2 ^ 34 % 4 = 2 ∧ n / 2 ^ 33 % 2 = k / 2 ^ 33 % 2 ∧ n / 2 ^ 32 % 2 = 0)) ∧
  (∀ table : Nat → Nat → Nat, table 3 0 = 0x3F400000 → table 3 2 = 0x3EA20000 →
    stampRead table 0x0000643841000000 0x69 = .ok 0x3FF30000 ∧ stampAdd table 0x0000643841000000 0x3F000000 0x69 9 = .ok 0x0000693840198000 ∧
    stampMerge table 0x000069383F000000 0x0000643841000000 0x70 = .ok 0x0000693840198000 ∧
    stampMerge table 0x0000643841000000 0x000069383F000000 0x70 = .ok 0x0000693840198000) ∧
  (stampSum true 0x7F7FFFFF 0x7F7FFFFF = 0x7F7FFFFF ∧ stampSum false 0x7F7FFFFF 0x7F7FFFFF = 0x7F800000 ∧ stampSum true 0xFF7FFFFF 0xFF7FFFFF = 0xFF7FFFFF ∧
    stampSum true 0x7F800000 0x3F800000 = 0x7F800000 ∧ stampSum false 0 1 = 0)

/-- R391, R402, R421 to R423, R438, R440: a checkpoint mark (CKMK), a counter (PERF) and a channel's number (SEQQ); and what a reading adds where
the tile logs or replays. That a mark while an earlier boundary stages or commits is owed is the model's choice (entry 20). A counter of cycles
(events 1, 4 and 5 of R402) reads a free value; units (event 2) and switches (event 3) are counted with the unit itself. -/
def Obligations.MarksCountersAndReadings : Prop :=
  (∀ (s : State) (u : VUnit), Free s u [] [] → s.cur < 30720 → s.me.blk.lr.gang.isSome = true → (s.fen s.cur).unprotected = false →
    s.me.vol.replay = none → s.me.vol.phase = .none → Completes (.ckmk u) s (fun t => (mine s t).vol.phase = .triggered ∧ (mine s t).vol.owed = false ∧
      OnlyCore s t ∧ Past u s.cx (here s t) ∧ (∀ r, (here s t).rg r = s.cx.rg r) ∧ (mine s t).pool = s.me.pool)) ∧
  (∀ (s : State) (u : VUnit), Free s u [] [] →
    (30720 ≤ s.cur ∨ s.me.blk.lr.gang = none ∨ (s.fen s.cur).unprotected = true ∨ s.me.vol.replay.isSome = true ∨ s.me.vol.phase = .triggered) →
    Completes (.ckmk u) s (NoResult s u)) ∧
  (∀ (s : State) (u : VUnit), Free s u [] [] → s.cur < 30720 → s.me.blk.lr.gang.isSome = true → (s.fen s.cur).unprotected = false →
    s.me.vol.replay = none → s.me.vol.phase ≠ .none → s.me.vol.phase ≠ .triggered →
    Completes (.ckmk u) s (CoreResult s u (fun t => t.modVol fun v => { v with owed := true }) id)) ∧
  (∀ (s : State) (u : VUnit), let x := s.cx.rg u.b
    let n := fld x 2 0
    let live := s.me.blk.ct.pcs.toList.getD n 0
    let sel := s.me.blk.ct.sels.toList.getD n 0
    Free s u [u.a, u.b] [] → Unlogged s → fld x 63 32 = 0 → fld x 29 21 = 0 → fld x 19 19 = 0 → fld x 7 3 = 0 →
    (x.getLsbD 31 = false → fld x 20 20 = 0 ∧ fld x 18 16 = 0 ∧ fld x 15 8 = 0) →
    (x.getLsbD 31 = true → fld x 15 8 ≤ 15 ∧ (fld x 20 20 = 0 → fld x 18 16 < s.me.nctx)) →
    ∃ v : BitVec 48, (fld sel 15 8 ∉ [1, 4, 5] → v = live) ∧ Completes (.perf u) s (fun t => Past u s.cx (here s t) ∧ OnlyCore s t ∧
      (∀ r, (here s t).rg r = if r = u.a ∧ r ≠ 0 then v.setWidth 64 else s.cx.rg r) ∧
      ∀ k : Fin 8, let new := (mine s t).blk.ct.sels.get k
        let old := if k.val = n then (if x.getLsbD 30 then 0 else v) else s.me.blk.ct.pcs.get k
        new = (if x.getLsbD 31 = true ∧ k.val = n then BitVec.ofNat 16 (fld x 15 8 * 256 + fld x 20 20 * 8 + fld x 18 16) else s.me.blk.ct.sels.get k) ∧
        (mine s t).blk.ct.pcs.get k = old + (if selCounts new 2 s.me.blk.hold = true ∨ selCounts new 3 s.me.blk.hold = true ∧ u.sw = true ∧ s.cx.outs ≠ [] then 1 else 0))) ∧
  (∀ (s : State) (u : VUnit), let w := s.cx.rg u.b
    let l := if u.xbits 3 3 = 1 then s.me.blk.ni.recv else s.me.blk.ni.send
    Free s u [u.a, u.b] [] → Unlogged s → fld w 63 16 = 0 → fld w 15 8 ≤ 191 → fld w 7 0 ≤ 159 →
    Completes (.seqq u) s (ScalarResult s u u.a (match l.find? (fun e => e.peer == tileNo (fld w 15 8) (fld w 7 0) && e.cls == u.xbits 2 0) with
      | none => 0
      | some e => BitVec.ofNat 64 (2 ^ 63 + e.next.toNat * 2 ^ 24 + (if u.xbits 3 3 = 1 then 0 else e.una.toNat))))) ∧
  (∀ (s : State) (u : VUnit), s.logs s.cur = true → Free s u [u.a] [] → Completes (.gett u) s (fun t =>
    (∀ r, (here s t).rg r = if r = u.a ∧ r ≠ 0 then s.timeAt s.cur else s.cx.rg r) ∧ Past u s.cx (here s t) ∧
      ∃ r, (t.fen s.cur).log = (s.fen s.cur).log ++ [r] ∧ r.kind = .rdv ∧ r.ctx = s.me.blk.hold ∧ r.ucnt = s.me.blk.ct.ucnt.setWidth 40 ∧
        r.data = leBytes 8 (s.timeAt s.cur).toNat)) ∧
  (∀ (s : State) (u : VUnit) (rs rest : List LogRec) (r : LogRec), s.me.vol.replay = some rs → Free s u [u.a] [] →
    takeRec .rdv (s.me.blk.ct.ucnt.setWidth 40) rs = some (r, rest) → Completes (.gett u) s (fun t =>
      (∀ k, (here s t).rg k = if k = u.a ∧ k ≠ 0 then BitVec.ofNat 64 (leNat r.data) else s.cx.rg k) ∧ Past u s.cx (here s t) ∧
        (mine s t).vol.replay = some rest ∧ t.fens = s.fens))

/-! ### Events of the module -/

/-- R36 to R40, R389, R390, R472, R473: module reset, functions that become ready in their order, fail their self-test or are lost, the
clock's lock and its best master, power and cooling. R17, R430, R431, R441, R470, R471: heartbeats and what their absence does at each
site, retests, and the recovery mailbox. The model's own, by the log: the images that a function needs, the order of their checks, what
a core starts with and a TSC's watchdog (entry 13), the host's mappings and the fuses that a reset keeps (entry 12, entry 13), the
mailbox's operand words (entry 34), what waits while the command processor hangs (entry 35), and events that the environment brings
(entries 36, 37, 59, 60). -/
def Obligations.BringUpPowerAndWatchdogs : Prop :=
  ((∀ s : State, Completes .moduleReset s (fun t => t.tiles = [] ∧ t.clusters = [] ∧ t.fens = [] ∧ t.dev = [] ∧ t.net = [] ∧ t.rim = .reset ∧
    t.cp = { Cp.reset with maps := s.cp.maps } ∧ t.clk.now = 0 ∧ t.clk.slew = 0 ∧ t.clk.dofsSet = false ∧ t.mg.rdyc = 0 ∧ t.mg.rdym = 0 ∧ t.mg.rdyfa = 0 ∧ t.mg.rdyfb = 0 ∧
    t.mg.attestKey = s.mg.attestKey + 1 ∧ t.mg.keyDigest = s.mg.keyDigest ∧ t.mg.rollback = s.mg.rollback ∧ t.mg.identityKey = s.mg.identityKey ∧
    t.mg.fwLoaded = s.arg.fw.filter (fun c => s.mg.fwCause c == 0) ∧
    t.mg.fwRefused = (s.arg.fw.filter (fun c => s.mg.fwCause c != 0)).map (fun c => (c.kind, s.mg.fwCause c)) ∧ t.host = s.host)) ∧
  (∀ s : State, (∃ k ∈ needsOf s.arg.fn, ∀ c ∈ s.mg.fwLoaded, c.kind ≠ k) → Completes .functionReady s (fun t => t = s)) ∧
  (∀ s : State, s.mg.ended s.arg.fn = false → s.mg.mayComeUp s.arg.fn = true → s.arg.b = true →
    Completes .functionReady s (fun t => t = { s with mg := { s.mg with testFailed := s.mg.testFailed ++ [(s.arg.fn, s.arg.i)] } })) ∧
  (∀ s : State, s.mg.ended s.arg.fn = true ∨ s.mg.mayComeUp s.arg.fn = false → Completes .functionReady s (fun t => t = s)) ∧
  (∀ s : State, s.mg.ended s.arg.fn = false → s.mg.mayComeUp s.arg.fn = true → s.arg.b = false →
    Completes .functionReady s (fun t => t.mg = s.mg.setReady s.arg.fn true ∧ (FnOk s.arg.fn → t.mg.isReady s.arg.fn = true) ∧
      ∀ k, if k ∈ s.coresOf s.arg.fn then ((t.tile k).ctx 0).run = .ready ∧ ((t.tile k).ctx 0).pc = 0 ∧ (t.tile k).pool = s.mg.bootImage s.arg.fn
        else t.tile k = s.tile k)) ∧
  (∀ s : State, s.mg.isReady s.arg.fn = true → FnOk s.arg.fn → Completes .functionLost s (fun t => t.mg.isReady s.arg.fn = false ∧
    s.arg.fn ∈ t.mg.lost ∧ ∀ n, s.arg.fn = .field n → ∀ q, q < 4 → 4 * n + q ∈ t.mg.domainsOff)) ∧
  (∀ s : State, s.mg.rdyc.getLsbD 4 = false → Completes .clockLockGained s (fun t => t.mg.rdyc.getLsbD 4 = true ∧ t.clk.now = s.clk.now ∧
    t.clk.dofsSet = true ∧ t.clk.dofs = (if s.clk.dofsSet then s.clk.dofs else s.arg.w - s.time) ∧ -100 ≤ t.clk.slew ∧ t.clk.slew ≤ 100)) ∧
  (∀ s : State, Completes .clockLockLost s (fun t => t.mg.rdyc.getLsbD 4 = false ∧ t.clk = s.clk)) ∧
  (∀ s : State, s.arg.n < 16 → s.mg.isReady (.belvis s.arg.n) = true → s.mg.domainNumber = BitVec.ofNat 64 s.arg.j → s.arg.b = true →
    Completes .ptpMessage s (fun t => t = { s with clk := { s.clk with announce := t.clk.announce } } ∧
      Tbl.look t.clk.announce s.arg.n = if s.arg.i = 0 then some s.arg.x.toNat else none)) ∧
  (∀ s : State, s.arg.b = false → s.masterPort ≠ some s.arg.n → Completes .ptpMessage s (fun t => t = s)) ∧
  (∀ s : State, s.arg.n < 16 → s.mg.isReady (.belvis s.arg.n) = true → s.mg.rdyc.getLsbD 4 = true → s.mg.domainNumber = BitVec.ofNat 64 s.arg.j →
    s.arg.b = false → s.masterPort = some s.arg.n →
    Completes .ptpMessage s (fun t => t = { s with clk := t.clk } ∧ t.clk.now = s.clk.now ∧ t.clk.dofs = s.clk.dofs ∧ -100 ≤ t.clk.slew ∧ t.clk.slew ≤ 100)) ∧
  (∀ s : State, s.mg.rdyc.getLsbD 3 = true → Completes .crownBudgetDivision s (fun t => t = { s with mg := t.mg } ∧ t.mg.afSeen = s.cp.afh.setWidth 16 ∧
    ∀ d, d < 336 → Tbl.get t.mg.currents d 0 = s.arg.nums.getD d 0 ∧ Tbl.get t.mg.grants d 0 ≤ s.mg.budget ∧ 1 ≤ Tbl.get t.mg.duties d 16 ∧ Tbl.get t.mg.duties d 16 ≤ 16)) ∧
  (∀ s : State, Completes .junctionThreshold105 s (fun t => (s.arg.n ∈ t.mg.hot ↔ s.arg.b = false) ∧ t = { s with mg := { s.mg with hot := t.mg.hot } })) ∧
  (∀ s : State, Completes .junctionThreshold115 s (fun t => s.arg.n ∈ t.mg.domainsOff)) ∧
  (∀ s : State, Completes .powerDomainLoss s (fun t => s.arg.n ∈ t.mg.domainsOff)) ∧
  (∀ s : State, Completes .coolantFlowAlarm s (fun t => t = { s with mg := { s.mg with budget := 8000, alarm := true, msix := 1 :: s.mg.msix, coolant := s.arg.nums } })) ∧
  (∀ s : State, Completes .coolantFlowReturn s (fun t => t = { s with mg := { s.mg with budget := 27000, alarm := false, coolant := s.arg.nums } }))) ∧
  ((∀ s : State, s.cp.hung = false → Completes .helhalHeartbeat s (fun t => t = { s with cp := { s.cp with beat := true } })) ∧
  (∀ s : State, s.cp.hung = false →
    (s.cp.beat = true → Completes .commandProcessorHung s (fun t => t = { s with cp := { s.cp with beat := false } })) ∧
    (s.cp.beat = false → Completes .commandProcessorHung s (fun t => t.cp.hung = true ∧ t.mg.msix = 0 :: s.mg.msix ∧ t.tiles = s.tiles))) ∧
  (∀ s : State, s.arg.b = false → (s.tile s.arg.n).vol.failed = false →
    Completes .coreHeartbeat s (fun t => (t.tile (s.hostOf s.arg.n)).vol.beat = true)) ∧
  (∀ s : State, s.arg.b = true → s.siteIdle s.arg.n s.arg.i = true → Completes .coreHeartbeat s (fun t =>
    t = { s with mg := t.mg } ∧ (∀ e, e ∈ t.mg.silent ↔ e ∈ s.mg.silent ∧ e ≠ 32 * s.arg.n + s.arg.i) ∧ t.mg.badSites = s.mg.badSites)) ∧
  (∀ s : State, s.arg.b = false → s.arg.n < 30720 → (s.tile s.arg.n).vol.failed = false →
    ((s.tile (s.hostOf s.arg.n)).vol.beat = true → Completes .watchdogExpiry s (fun t =>
      (t.tile (s.hostOf s.arg.n)).vol.beat = false ∧ (t.tile s.arg.n).vol.failed = false)) ∧
    ((s.tile (s.hostOf s.arg.n)).vol.beat = false → Completes .watchdogExpiry s (fun t => (t.tile s.arg.n).vol.failed = true))) ∧
  (∀ s : State, s.arg.b = true → s.siteIdle s.arg.n s.arg.i = true →
    (32 * s.arg.n + s.arg.i ∉ s.mg.silent → Completes .watchdogExpiry s (fun t => 32 * s.arg.n + s.arg.i ∈ t.mg.silent ∧ t.mg.badSites = s.mg.badSites)) ∧
    (32 * s.arg.n + s.arg.i ∈ s.mg.silent → Completes .watchdogExpiry s (fun t => s.arg.i ∈ t.badSites s.arg.n))) ∧
  (∀ s : State, let k := s.arg.n
    ((s.cluster k).tscBeat = true → Completes .tscWatchdogExpiry s (fun t => (t.cluster k).tscBeat = false ∧ t.tiles = s.tiles)) ∧
    ((s.cluster k).tscBeat = false → Completes .tscWatchdogExpiry s (fun t => (t.cluster k).tscBeat = true ∧ ((t.tile (30720 + k)).ctx 0).run = .ready ∧
      ((t.tile (30720 + k)).ctx 0).pc = 0 ∧ (t.tile (30720 + k)).pool = (s.tile (30720 + k)).pool ∧
      (t.cluster k).reqs = (s.cluster k).reqs.map (fun r => { r with taken := false })))) ∧
  (∀ s : State, (s.badSites (s.pcnOf s.arg.n)).contains s.arg.i = true →
    Completes .backgroundRetest s (fun t => t = { s with mg := { s.mg with retests := s.mg.retests ++ [(s.arg.n, s.arg.i, s.arg.b)] } })) ∧
  (∀ s : State, let k := s.arg.n
    k < 1920 → (∀ p, p < 16 → (s.tile (tileAt k p)).blk.lr.gang = none) → s.mg.shadow = none → (∀ x ∈ s.mg.repairs, clusterOf x ≠ k) →
    Completes .fullReTest s (fun t => t.mg.mgen = s.mg.mgen + 1 ∧ t.causeway k = (true, k) ∧ (∀ p, t.posMap k p = (p, p)) ∧
      t.badSites k = s.arg.nums ∧ ∀ p, p < 16 → (t.tile (tileAt k p)).vol.failed = (s.arg.nums.contains p || s.arg.nums.contains 17))) ∧
  (∀ s : State, 1920 ≤ s.arg.n → s.arg.n < 2016 → s.carriedBy s.arg.n = none → Completes .fullReTest s (fun t =>
    t.badSites s.arg.n = s.arg.nums ∧ t.tiles = s.tiles ∧ t.mg.cause = s.mg.cause)) ∧
  (∀ s : State, s.mailOp 0 = 1 → Completes .mailboxRead s (fun t => t.mg.mailCmd = BitVec.ofNat 64 (2 ^ 63 + 1) ∧
    ∀ q, q < 1024 → Mem.bytes t.mg.window (64 * q) 64 = (s.queue q).bytes)) ∧
  (∀ s : State, let q := (s.mailOp 0).toNat % 1024
    (s.frozen q = true ∨ (s.queue q).tkt = 0 → exec .mailboxStep s = .next (s.mailed 2)) ∧
    (s.frozen q = false → (s.queue q).tkt ≠ 0 → exec .mailboxStep s = .next ((s.runHead q).mailed 2)) ∧
    (s.frozen q = false → s.inA q = true → s.headPacket q = .malformed →
      Completes .mailboxStep s (fun t => t.mg.mailCmd = BitVec.ofNat 64 (2 ^ 63 + 2) ∧ (t.queue q).state = 2 ∧ (t.queue q).err = 1))) ∧
  (∀ (s : State) (p : PageReq) (tag : BitVec 16) (res : Nat) (i : Instr), s.cp.pages.find? (fun p => p.tag == tag) = some p →
    (s.cluster p.cluster).reqs.length < 64 →
    ((i = .mailboxAnswer ∧ tag = (s.mailOp 0).setWidth 16 ∧ res = (s.mailOp 1).toNat) ∨
      (i = .hostPageAnswer ∧ s.cp.hung = false ∧ tag = BitVec.ofNat 16 s.arg.n ∧ res = s.arg.j)) →
    Completes i s (fun t => p ∉ t.cp.pages ∧ ∃ r, (t.cluster p.cluster).reqs = (s.cluster p.cluster).reqs ++ [r] ∧ r.acc = 3 ∧ r.tag = p.tag ∧
      r.res = res % 4 ∧ r.addr = p.addr ∧ r.taken = false ∧ (i = .mailboxAnswer → t.mg.mailCmd = BitVec.ofNat 64 (2 ^ 63 + 3)))) ∧
  (∀ s : State, Completes .mailboxRestart s (fun t => t.mg.mailCmd = BitVec.ofNat 64 (2 ^ 63 + 4) ∧
    if s.arg.fw.any (fun c => c.kind == .helhal && s.mg.fwCause c == 0) then t.cp.hung = false ∧ t.cp.beat = true ∧ t.mg.events = []
    else t.cp = s.cp ∧ t.mg.events = s.mg.events)) ∧
  (∀ s : State, Completes .attest s (fun t => t.mg.mailCmd = BitVec.ofNat 64 (2 ^ 63 + 5) ∧ t.tiles = s.tiles ∧ t.cp = s.cp)))

/-- R317 to R322, R456, R466 to R469, R498: register writes and what the host reads back, doorbells, queue commands, partitions, and the
choice of a queue. The model's own, by the log: packets and passes are events of their own (entry 32), a pass with no queue writes AFH
(entry 33), and how the host's mappings and the module's number come to be (entries 12, 60). -/
def Obligations.QueueRegistersAndChoice : Prop :=
  (∀ s : State, s.arg.j = 0 → let w := s.arg.w
    (s.arg.n = 0x30 → Completes .managementRegisterWrite s (fun t => t = { s with mg := { s.mg with slkt := w } } ∧ t.registerRead 0x30 = w)) ∧
    (s.arg.n = 0x38 → Completes .managementRegisterWrite s (fun t => t = { s with mg := { s.mg with domainNumber := w } } ∧ t.registerRead 0x38 = w)) ∧
    (∀ q, q < 1024 → s.arg.n = 0x10000 + 64 * q → Completes .managementRegisterWrite s (fun t =>
      t.queue q = if (s.queue q).state = 0 then { s.queue q with ring := w } else s.queue q)) ∧
    (∀ q, q < 1024 → s.arg.n = 0x10000 + 64 * q + 8 → fld w 39 36 = 0 → Completes .managementRegisterWrite s (fun t =>
      (t.queue q).tkt = BitVec.ofNat 16 (fld w 63 48) ∧
      ((s.queue q).state = 0 → (t.queue q).lsz = BitVec.ofNat 4 (fld w 47 44) ∧ (t.queue q).prt = BitVec.ofNat 4 (fld w 43 40) ∧ (t.queue q).pasid = BitVec.ofNat 20 (fld w 19 0)))) ∧
    (∀ p, p < 16 → s.arg.n = 0x4000 + 512 * p + 8 → (s.partition p).en = false → Completes .managementRegisterWrite s (fun t =>
      t.partition p = { s.partition p with pcnt := fld w 52 32, pbas := fld w 19 0 }))) ∧
  (∀ s : State, s.arg.j = 1 → Completes .managementRegisterWrite s (fun t => t = { s with rim := { s.rim with moduleNo := s.arg.w.setWidth 16 } })) ∧
  (∀ (s : State) (v : CpSpace) (a : Word) (n : Nat), s.arg.j = 2 → s.arg.b = false → v.asid.toNat = s.arg.i → fld a 63 62 = 2 → fld a 61 48 = 0 →
    s.arg.w.toNat ≤ fld a 47 0 → fld a 47 0 + n ≤ s.arg.w.toNat + s.arg.n → s.arg.x.toNat + (fld a 47 0 - s.arg.w.toNat) + n ≤ deviceEnd →
    Completes .managementRegisterWrite s (fun t => t.cpPlace v a n = some (true, s.arg.x.toNat + (fld a 47 0 - s.arg.w.toNat)))) ∧
  (∀ s : State, s.arg.n < 1024 → (s.queue s.arg.n).state ≠ 0 → (s.queue s.arg.n).state ≠ 3 →
    Completes .doorbell s (fun t => (t.queue s.arg.n).tail = s.arg.w.setWidth 32 ∧
      let n := (s.arg.w.setWidth 32 - (s.queue s.arg.n).head).toNat
      ((s.queue s.arg.n).size < n → n < 2 ^ 31 → (t.queue s.arg.n).state = 2 ∧ (t.queue s.arg.n).err = 5))) ∧
  (∀ s : State, s.arg.n < 1024 → fld s.arg.w 39 36 = 1 → (s.queue s.arg.n).state = 0 →
    (fld s.arg.w 47 44 ≤ 12 → Completes .queueCreate s (fun t => (t.queue s.arg.n).state = 1 ∧ (t.queue s.arg.n).head = 0 ∧ (t.queue s.arg.n).tail = 0 ∧
      (t.queue s.arg.n).err = 0 ∧ (t.queue s.arg.n).lsz = BitVec.ofNat 4 (fld s.arg.w 47 44) ∧ (t.queue s.arg.n).prt = BitVec.ofNat 4 (fld s.arg.w 43 40))) ∧
    (12 < fld s.arg.w 47 44 → Completes .queueCreate s (fun t => (t.queue s.arg.n).state = 0 ∧ (t.queue s.arg.n).err = 6))) ∧
  (∀ s : State, s.arg.n < 1024 → fld s.arg.w 39 36 = 2 → (s.queue s.arg.n).state ≠ 0 → Completes .queueDestroy s (fun t =>
    (t.queue s.arg.n).state = (if s.launchesOf s.arg.n = [] then 0 else 3) ∧ (t.queue s.arg.n).wait = none ∧ t.cp.gangs = s.cp.gangs)) ∧
  (∀ s : State, s.arg.n < 1024 → fld s.arg.w 39 36 = 3 → (s.queue s.arg.n).state ≠ 0 → s.cp.hung = true → Completes .queueDestroyAndBrim s (fun t =>
    (t.queue s.arg.n).brim = true ∧ t.cp.gangs = s.cp.gangs ∧ t.tiles = s.tiles)) ∧
  (∀ s : State, s.arg.n < 1024 → fld s.arg.w 39 36 = 3 → (s.queue s.arg.n).state ≠ 0 → s.cp.hung = false → Completes .queueDestroyAndBrim s (fun t =>
    (t.queue s.arg.n).state = (if s.launchesOf s.arg.n = [] then 0 else 3) ∧
    ∀ g k, s.gang? g = some k → (g, k) ∈ s.cp.gangs → k.queue = s.arg.n → k.state ≠ .switchedOut → s.time.toNat < k.b.toNat →
      t.gang? g = some { k with b := s.time, d := s.time + k.lrec.w })) ∧
  (∀ s : State, s.arg.n < 1024 → fld s.arg.w 39 36 = 4 → (s.queue s.arg.n).state = 2 → Completes .queueClearError s (fun t =>
    (t.queue s.arg.n).state = 1 ∧ (t.queue s.arg.n).head = (s.queue s.arg.n).tail ∧ (t.queue s.arg.n).tail = (s.queue s.arg.n).tail)) ∧
  (∀ s : State, s.arg.n < 16 → (s.partition s.arg.n).en = false → s.partitionFits s.arg.n = true →
    Completes .partitionEnable s (fun t => t.partition s.arg.n = { s.partition s.arg.n with en := true })) ∧
  (∀ s : State, s.arg.n < 16 → (∀ e ∈ s.cp.queues, e.2.state ≠ 0 → (s.queue e.1).prt.toNat ≠ s.arg.n) →
    (∀ e ∈ s.cp.gangs, (s.queue e.2.queue).prt.toNat ≠ s.arg.n) →
    Completes .partitionDisable s (fun t => t.partition s.arg.n = { s.partition s.arg.n with en := false })) ∧
  (∀ (s : State) (q : Nat), s.cpLive = true →
    (s.cp.turn = none → s.join.choose = none → Completes .stridePass s (fun t => t.cp.turn = none ∧ t.cp.blocked = [] ∧
      fld t.cp.afh 15 0 = (fld s.cp.afh 15 0 + 1) % 2 ^ 16 ∧ fld t.cp.afh 63 32 = (s.time.toNat + 5000) / 1000 % 2 ^ 32)) ∧
    (s.cp.turn = none → s.join.choose = some q → Completes .stridePass s (fun t => t.cp.turn = some q ∧
      fld t.cp.afh 15 0 = (fld s.cp.afh 15 0 + 1) % 2 ^ 16 ∧ fld t.cp.afh 63 32 = (s.time.toNat + 5000) / 1000 % 2 ^ 32 ∧
      ∀ e ∈ s.join.cp.queues, s.join.inA e.1 = true → s.cp.blocked.contains e.1 = false → (s.join.queue q).pass ≤ e.2.pass)) ∧
    (s.cp.turn = some q → s.frozen q = false →
      (s.headPacket q = .empty → Completes .stridePass s (fun t => t.cp.turn = none)) ∧
      (s.headPacket q = .unreadable → Completes .stridePass s (fun t => (t.queue q).state = 2 ∧ (t.queue q).err = 2 ∧ t.cp.turn = none)) ∧
      (s.headPacket q = .malformed → Completes .stridePass s (fun t => (t.queue q).state = 2 ∧ (t.queue q).err = 1 ∧ t.cp.turn = none))))

/-- R461, R462, R464: the packets of a host queue. The model's own, by the log: the host's mappings translate a queue's addresses, and a
record that cannot be read is reported in the event ring (entry 12); a cyclic table at a chosen origin is found when it is chosen (entry
22). -/
def Obligations.QueuePackets : Prop :=
  (∀ (s : State) (q typ : Nat) (e : Nat → Word) (b : List Byte) (wh : List Byte) (o : Nat × Nat),
    let r := if typ = 2 then { readRec b with gw := recNat wh 0 1, gh := recNat wh 1 1 } else readRec b
    AtPacket s q typ e → (typ = 1 ∨ (typ = 2 ∧ s.cpRead (s.queueSpace q) (e 2) 2 = some wh)) → s.cpRead (s.queueSpace q) (e 1) 256 = some b → recZero b = true →
    s.invalid r (s.queue q).prt.toNat = none → (r.d = 0xFFFFFFFFFFFFFFFF ∨ (s.time.toNat < r.d.toNat ∧ (r.bent = 0 → s.time.toNat < r.b.toNat))) →
    s.place q (s.queue q).prt.toNat r = some o → (r.fxo = true ∨ s.cyclic { r with gxo := o.1, gyo := o.2 } = false) →
    Completes (if typ = 1 then .launchPacket else .launchiPacket) s (fun t => Consumed s t q 1 ∧ t.cp.turn = none ∧ t.cp.nextGang = s.cp.nextGang + 1 ∧
      (t.queue q).pass = (s.queue q).pass + strideOf (s.queue q).tkt.toNat s.mg.slkt.toNat s.time.toNat r ∧
      (∃ k, t.gang? s.cp.nextGang = some k ∧ k.state = .placed ∧ k.queue = q ∧ k.lrec = { r with gxo := o.1, gyo := o.2 } ∧ k.d = r.d ∧ k.b = r.b ∧ k.gst = r.gst0) ∧
      ∀ x ∈ r.tilesAt o.1 o.2, (t.tile x).blk.lr.gang = some s.cp.nextGang ∧ (t.tile x).blk.lr.started = false)) ∧
  (∀ (s : State) (q : Nat) (e : Nat → Word) (b : List Byte) (n : Nat), AtPacket s q 1 e → s.cpRead (s.queueSpace q) (e 1) 256 = some b →
    (if recZero b then s.invalid (readRec b) (s.queue q).prt.toNat else some 1) = some n →
    Completes .launchPacket s (fun t => Consumed s t q 1 ∧ t.cp.gangs = s.cp.gangs)) ∧
  (∀ (s : State) (q : Nat) (e : Nat → Word) (b : List Byte) (o : Nat × Nat), AtPacket s q 1 e → s.cpRead (s.queueSpace q) (e 1) 256 = some b → recZero b = true →
    s.invalid (readRec b) (s.queue q).prt.toNat = none → (readRec b).d = 0xFFFFFFFFFFFFFFFF → (readRec b).fxo = false →
    s.place q (s.queue q).prt.toNat (readRec b) = some o → s.cyclic { readRec b with gxo := o.1, gyo := o.2 } = true →
    Completes .launchPacket s (fun t => Consumed s t q 1 ∧ t.cp.gangs = s.cp.gangs)) ∧
  (∀ (s : State) (q : Nat) (e : Nat → Word), AtPacket s q 1 e → s.cpRead (s.queueSpace q) (e 1) 256 = none →
    Completes .launchPacket s (fun t => Consumed s t q 1 ∧ t.cp.gangs = s.cp.gangs ∧ ∃ p, t.mg.events.getLast? = some p ∧ p.bytes.take 2 = [4, 1])) ∧
  (∀ (s : State) (q : Nat) (e : Nat → Word), AtPacket s q 3 e →
    ((s.queue q).loops.length < 4 → Completes .loopPacket s (fun t => Consumed s t q 1 ∧
      (t.queue q).loops = (((s.queue q).head + 1).toNat, (e 1).toNat) :: (s.queue q).loops)) ∧
    (4 ≤ (s.queue q).loops.length → Completes .loopPacket s (fun t => (t.queue q).state = 2 ∧ (t.queue q).err = 4))) ∧
  (∀ (s : State) (q : Nat) (e : Nat → Word), AtPacket s q 4 e →
    ((s.queue q).loops = [] → Completes .endloopPacket s (fun t => (t.queue q).state = 2 ∧ (t.queue q).err = 4)) ∧
    ∀ a n r, (s.queue q).loops = (a, n) :: r → Completes .endloopPacket s (fun t =>
      (n ≤ 1 → Consumed s t q 1 ∧ (t.queue q).loops = r) ∧ (1 < n → (t.queue q).head = BitVec.ofNat 32 a ∧ (t.queue q).loops = (a, n - 1) :: r))) ∧
  (∀ (s : State) (q : Nat) (e : Nat → Word) (x : Word), AtPacket s q 5 e → s.cpWord (s.queueSpace q) (e 1) = some x →
    Completes .ifPacket s (fun t => Consumed s t q (if signalHolds (e 3).toNat x (e 2) then 1 else 1 + (e 4).toNat))) ∧
  (∀ (s : State) (q : Nat) (e : Nat → Word) (x : Word), AtPacket s q 6 e → s.cpWord (s.queueSpace q) (e 1) = some x →
    (signalHolds (e 3).toNat x (e 2) = true → Completes .waitsigPacket s (fun t => Consumed s t q 1)) ∧
    (signalHolds (e 3).toNat x (e 2) = false → Completes .waitsigPacket s (fun t =>
      (t.queue q).wait = some (.signal (e 1) (e 2) (e 3).toNat) ∧ (t.queue q).head = (s.queue q).head ∧ t.cp.turn = none))) ∧
  (∀ (s : State) (a v x : Word) (c : Nat), s.cpLive = true → s.frozen s.arg.n = false → (s.queue s.arg.n).state = 1 →
    (s.queue s.arg.n).wait = some (.signal a v c) → s.cpWord (s.queueSpace s.arg.n) a = some x → signalHolds c x v = true →
    Completes .conditionReevaluation s (fun t => Consumed s t s.arg.n 1)) ∧
  (∀ (s : State) (q : Nat) (e : Nat → Word) (x : Word), AtPacket s q 7 e → s.cpWord (s.queueSpace q) (e 1) = some x →
    Completes .signalPacket s (fun t => Consumed s t q 1 ∧ t.cpWord (s.queueSpace q) (e 1) = some (if e 3 = 0 then e 2 else x + e 2))) ∧
  (∀ (s : State) (q : Nat) (e : Nat → Word), AtPacket s q 8 e → (s.cpPlace (s.queueSpace q) (e 1) (e 6).toNat).isSome = true → (e 6).toNat ≤ 32 →
    Completes .writePacket s (fun t => Consumed s t q 1 ∧
      t.cpRead (s.queueSpace q) (e 1) (e 6).toNat = some (([2, 3, 4, 5].flatMap (fun i => leBytes 8 (e i).toNat)).take (e 6).toNat))) ∧
  (∀ (s : State) (q : Nat) (e : Nat → Word) (bs : List Byte), AtPacket s q 9 e → s.cpRead (s.queueSpace q) (e 2) (e 3).toNat = some bs →
    (s.cpPlace (s.queueSpace q) (e 1) (e 3).toNat).isSome = true → Completes .copyPacket s (fun t => Consumed s t q 1 ∧ t.cpRead (s.queueSpace q) (e 1) (e 3).toNat = some bs)) ∧
  (∀ (s : State) (q : Nat) (e : Nat → Word), AtPacket s q 10 e →
    (s.launchesOf q = [] → Completes .fencePacket s (fun t => Consumed s t q 1)) ∧
    (s.launchesOf q ≠ [] → Completes .fencePacket s (fun t => (t.queue q).wait = some .fence ∧ (t.queue q).head = (s.queue q).head ∧ t.cp.turn = none))) ∧
  (∀ (s : State) (q : Nat) (e : Nat → Word), AtPacket s q 11 e → Completes .stepcPacket s (fun t => Consumed s t q 1 ∧
    ∀ g k, s.gang? g = some k → t.gang? g = some { k with srq := k.srq || (k.queue == q && k.lrec.ltag == e 1 && k.state != .switchedOut) })) ∧
  (∀ (s : State) (q : Nat) (e : Nat → Word), AtPacket s q 12 e →
    ((e 1).toNat ≤ s.time.toNat → Completes .timewaitPacket s (fun t => Consumed s t q 1)) ∧
    (s.time.toNat < (e 1).toNat → Completes .timewaitPacket s (fun t => (t.queue q).wait = some (.time (e 1)) ∧ t.cp.turn = none))) ∧
  (∀ (s : State) (w : Word), s.cpLive = true → s.frozen s.arg.n = false → (s.queue s.arg.n).state = 1 → (s.queue s.arg.n).wait = some (.time w) →
    w.toNat ≤ s.time.toNat → Completes .timewaitExpiry s (fun t => Consumed s t s.arg.n 1))

/-- R46 to R51, R66, R491: a release lays the image and the launch registers into every tile of the rectangle, rank by rank, and when it
reaches a tile the listed contexts are ready at the task entry; into wrap-up, at the wrap-up entry as diverted contexts. R51, R168: a
task that starts has its arguments, its stack and no open trap or upcall. R54, R72, R268, R392, R428, R465, R468: a launch whose tiles
are done leaves the table and its signal is written; fatal reports count and force brim; the new B and D reach the tiles. The model's
own, by the log: a launch's addresses are translated by the host's mappings (entry 12), a release takes two steps, masks before the
release (entry 14), and when a launch counts as done (entry 26). -/
def Obligations.LaunchesRun : Prop :=
  ((∀ (s : State) (k : Gang), let g := s.arg.n
    let r := k.lrec
    let prt := (s.queue k.queue).prt.toNat
    s.gang? g = some k → k.state = .placed → s.cp.hung = false → s.mg.halts.contains 16 = false → s.mg.halts.contains prt = false → r.gxo + r.gw ≤ 192 →
    (∀ x ∈ k.tiles, (s.tile x).vol.failed = false) →
    (k.loaded = false → Completes .gangRelease s (fun t => (∃ j, t.gang? g = some j ∧ j.state = .placed ∧ j.loaded = true ∧ j.lrec = r) ∧ t.dev = s.dev ∧ t.host = s.host ∧
      ∀ i j, i < r.gw → j < r.gh → let n := tileNo (r.gxo + i) (r.gyo + j)
        let x := t.tile n
        x.pool = Mem.cells 0 ((s.cpRead r.space r.img r.isz).getD []) ∧ x.blk.lr.rank = r.gw * j + i ∧ x.blk.lr.tid = tidOf n ∧ x.blk.lr.xb = BitVec.ofNat 21 r.xb ∧
        x.blk.lr.gang = some g ∧ x.blk.lr.started = false ∧ x.blk.lr.dln = k.d ∧ x.blk.lr.brt = k.b ∧ x.blk.lr.ord = r.ord ∧ x.blk.lr.prt = prt ∧
        (∀ c, (x.ctx c).run = .idle) ∧ Told t n (.masks g (s.masks r (r.gw * j + i)).1 (s.masks r (r.gw * j + i)).2))) ∧
    (k.loaded = true → s.masking g = true → Completes .gangRelease s (fun t => t = s)) ∧
    (k.loaded = true → s.masking g = false → Completes .gangRelease s (fun t => t.gang? g = some { k with state := .running } ∧ t.tiles = s.tiles ∧
      ∀ x ∈ k.tiles, Told t x (.release g)))) ∧
  (∀ (s : State) (g : Nat) (p : Pkt) (m d : BitVec 16), let x := s.tile s.arg.n
    TellsTile s s.arg.n p (.masks g m d) → x.blk.lr.gang = some g → x.blk.lr.started = false → x.vol.failed = false → x.vol.halted = false → x.vol.replay = none →
    Completes .tileRelease s (fun t => TookTold s t s.arg.n p ∧ (t.tile s.arg.n).blk.sy.mem = m ∧ (t.tile s.arg.n).blk.sy.drn = d ∧
      (t.tile s.arg.n).blk.sy.memP = m ∧ (t.tile s.arg.n).blk.sy.drnP = d ∧ (t.tile s.arg.n).blk.lr = x.blk.lr ∧ (t.tile s.arg.n).blk.cx = x.blk.cx)) ∧
  (∀ (s : State) (g : Nat) (k : Gang) (p : Pkt), let x := s.tile s.arg.n
    TellsTile s s.arg.n p (.release g) → x.blk.lr.gang = some g → s.gang? g = some k → x.blk.lr.started = false → x.vol.failed = false →
    x.vol.halted = false → x.vol.replay = none →
    Completes .tileRelease s (fun t => (t.tile s.arg.n).blk.lr.started = true ∧ TookTold s t s.arg.n p ∧ ∀ c, c < 8 →
      let y := (t.tile s.arg.n).ctx c
      if x.blk.lr.ctxl.getLsbD c = true then y.run = .ready ∧ y.rg 62 = BitVec.ofNat 64 (x.stackTop c) ∧
          (k.wrap = false → y.pc = BitVec.ofNat 64 x.blk.lr.tent ∧ ∀ r, r ≠ 62 → y.rg r = 0) ∧
          (k.wrap = true → y.pc = BitVec.ofNat 64 x.blk.lr.bent ∧ y.diverted = true ∧ y.rg 1 = BitVec.ofNat 64 x.blk.lr.tent ∧ ∀ r, r ≠ 1 → r ≠ 62 → y.rg r = 0)
        else y = x.ctx c)) ∧
  (∀ (s : State) (c : Nat) (h : Held), let x := s.tile s.arg.n
    let bs := (x.peek s.fresh x.vol.taskQ h).2
    let w := fun i => leNat ((bs.drop (4 * i)).take 4)
    s.freeCtx s.arg.n = some c → x.nextSpawn = some h → s.alive s.arg.n = true → x.vol.halted = false → s.unheld s.arg.n = true →
    x.blk.lr.started = true → s.brimDue s.arg.n = false →
    w 0 % 2 = 0 → w 0 < x.blk.lr.xb.toNat →
    Completes .taskStart s (fun t => ((t.tile s.arg.n).ctx c).run = .ready ∧ ((t.tile s.arg.n).ctx c).pc = BitVec.ofNat 64 (w 0) ∧
      ((t.tile s.arg.n).ctx c).rg 62 = BitVec.ofNat 64 (x.stackTop c) ∧
      (∀ i, i < 7 → ((t.tile s.arg.n).ctx c).rg (BitVec.ofNat 6 (i + 1)) = BitVec.ofNat 64 (w (i + 1))) ∧
      ((t.tile s.arg.n).ctx c).nest = false ∧ ((t.tile s.arg.n).ctx c).upCause = 0 ∧
      ((∃ i, h = .queue i) → ∀ d, d % 8 ≠ c % 8 → (t.tile s.arg.n).ctx d = x.ctx d)))) ∧
  ((∀ (s : State) (k : Gang), s.gang? s.arg.n = some k → s.gangDone s.arg.n k = true → s.cp.hung = false → (s.cpPlace k.lrec.space k.lrec.csig 8).isSome = true →
    Completes .gangCompletion s (fun t => t.gang? s.arg.n = none ∧ t.cpWord k.lrec.space k.lrec.csig = some k.lrec.cval ∧
      (∀ g, g ≠ s.arg.n → t.gang? g = s.gang? g) ∧
      (k.state ≠ .switchedOut → ∀ x ∈ k.tiles, (t.tile x).blk.lr.gang = none ∧ (t.tile x).vol.rq = [] ∧ (t.tile x).blk.arr.req = false))) ∧
  (∀ (s : State) (g : Nat) (w tra : Word) (r : List (Nat × Word × Word)) (k : Gang), s.cp.reports = (g, w, tra) :: r → s.cp.hung = false → s.gang? g = some k →
    Completes .fatalReport s (fun t => t.cp.reports = r ∧ ∃ j, t.gang? g = some j ∧ j.fatals = k.fatals + 1 ∧
      (k.firstFatal = none → j.firstFatal = some (w, tra)) ∧ (∀ e, k.firstFatal = some e → j.firstFatal = some e) ∧
      (s.time.toNat < k.b.toNat → j.b = s.time ∧ j.d = s.time + k.lrec.w) ∧ (k.b.toNat ≤ s.time.toNat → j.b = k.b ∧ j.d = k.d))) ∧
  (∀ (s : State) (p : Pkt) (b d : Word), let x := s.tile s.arg.n
    TellsTile s s.arg.n p (.brim b d) → s.admits s.arg.n = true →
    Completes .forcedBrimWrite s (fun t => TookTold s t s.arg.n p ∧ (t.tile s.arg.n).blk.lr = { x.blk.lr with brt := b, dln := d } ∧
      (t.tile s.arg.n).blk.cx = x.blk.cx)) ∧
  (∀ (s : State) (g : Nat) (k : Gang), s.gang? g = some k → k.state = .running → s.time.toNat < k.b.toNat → ∀ x ∈ k.tiles,
    Told (s.forceBrim g) x (.brim s.time (s.time + k.lrec.w))))

/-- R67, R68, R70, R72, R169: brim time discards the waiting tasks and diverts every running context to the wrap-up entry with the old pc in
g1 and the cause in g2; the deadline stops it; a parked context wakes at its time. The model's own, by the log: g1 of a context diverted
in WTB or MONW is that unit's pc (entry 67), and what is due on a core comes in the order of entry 18. -/
def Obligations.BrimDeadlineAndWake : Prop :=
  (∀ s : State, s.brimDue s.arg.n = true → Completes .brimTime s (fun t => (t.tile s.arg.n).blk.lr.brimFired = true ∧ (t.tile s.arg.n).vol.taskQ = [])) ∧
  (∀ s : State, s.divertDue s.arg.n = true → (s.tile s.arg.n).blk.lr.bent ≠ 0 → Completes .brimTime s (fun t => ∀ c, c < 8 →
    let x := (s.tile s.arg.n).ctx c
    let y := (t.tile s.arg.n).ctx c
    if x.active = true ∧ x.diverted = false then y.run = .ready ∧ y.diverted = true ∧ y.pc = BitVec.ofNat 64 (s.tile s.arg.n).blk.lr.bent ∧
        (∀ w len, x.run = .waiting (.park w len) → y.rg 1 = x.pc + BitVec.ofNat 64 len) ∧
        ((∀ w len, x.run ≠ .waiting (.park w len)) → y.rg 1 = x.pc) ∧ y.rg 2 = BitVec.ofNat 64 (s.brimCause s.arg.n c)
      else y = x)) ∧
  (∀ s : State, s.divertDue s.arg.n = true → (s.tile s.arg.n).blk.lr.bent = 0 → Completes .brimTime s (fun t => ∀ c, c < 8 →
    let x := (s.tile s.arg.n).ctx c
    let y := (t.tile s.arg.n).ctx c
    if x.active = true ∧ x.diverted = false then y.run = .stopped false ∧ y.g = x.g else y = x)) ∧
  (∀ s : State, s.deadlineDue s.arg.n = true → Completes .deadlineTime s (fun t => (t.tile s.arg.n).blk.lr.dlnFired = true ∧
    (t.tile s.arg.n).blk.lr.brimFired = true ∧ ∀ c, c < 8 → ((s.tile s.arg.n).ctx c).active = true → ((t.tile s.arg.n).ctx c).run = .stopped false ∧
      ∀ w len, ((s.tile s.arg.n).ctx c).run = .waiting (.park w len) → ((t.tile s.arg.n).ctx c).pc = ((s.tile s.arg.n).ctx c).pc + BitVec.ofNat 64 len)) ∧
  (∀ (s : State) (w : Word) (len : Nat), let x := (s.tile s.arg.n).ctx s.arg.i
    x.run = .waiting (.park w len) → w ≠ 0 → w.toNat ≤ (s.timeAt s.arg.n).toNat → s.admits s.arg.n = true →
    Completes .parkWakeTime s (fun t => (t.tile s.arg.n).ctx s.arg.i = { x with run := .ready, pc := x.pc + BitVec.ofNat 64 len }))

/-- R74, R76, R242, R447 to R449: a gang switch is announced, stops every tile, saves pool and header into the save area, and gives the
launch back to its tiles; a save that fails leaves it resident until the host driver resolves it. The model's own, by the log: the saved
block is kept beside its area, whose bytes are free (entry 25), a launch returns to its own origin, and takes its packets into spill
buffers and rings as entry 27 says. -/
def Obligations.GangsAreSwitched : Prop :=
  ((∀ (s : State) (k : Gang), let n := s.arg.n
    s.gang? n = some k → k.state = .running → s.cp.hung = false → s.arg.j = 0 → s.time.toNat + 20000 ≤ s.arg.w.toNat →
    ¬ (k.b.toNat ≤ s.arg.w.toNat ∧ s.arg.w.toNat < k.d.toNat) →
    (s.arg.b = false → k.lrec.savb ≠ 0 → (∀ i, i < k.tiles.length → (k.area i).isSome = true) →
      Completes .gangSwitchAnnouncement s (fun t => t.gang? n = some { k with switchAt := some s.arg.w } ∧ t.tiles = s.tiles ∧
        ∀ x ∈ k.tiles, Told t x (.switchAt n s.arg.w))) ∧
    (s.arg.b = true ∨ k.lrec.savb = 0 ∨ (∃ i, i < k.tiles.length ∧ k.area i = none) →
      Completes .gangSwitchAnnouncement s (fun t => t = { s with mg := { s.mg with switchErrors := s.mg.switchErrors ++ [n] } }))) ∧
  (∀ (s : State) (p : Pkt) (g : Nat) (w : Word), TellsTile s s.arg.n p (.switchAt g w) → s.arg.j ≠ 0 → (s.tile s.arg.n).vol.failed = false →
    (s.tile s.arg.n).blk.lr.gang = some g →
    Completes .gangSwitchAnnouncement s (fun t => TookTold s t s.arg.n p ∧ (t.tile s.arg.n).vol.switchAt = some w ∧
      (t.tile s.arg.n).blk = (s.tile s.arg.n).blk)) ∧
  (∀ (s : State) (k : Gang), s.gang? s.arg.n = some k → k.state = .running → k.switchAt.isSome = true → (∃ x ∈ k.tiles, s.switchDue x = true) →
    Completes .gangSwitch s (fun t => (∃ j, t.gang? s.arg.n = some j ∧ j.state = .switching ∧ j.mgAt = s.mg.mgen) ∧
      ∀ x ∈ k.tiles, s.switchDue x = true → (s.tile x).vol.failed = false → (s.tile x).vol.replay = none → s.unheld x = true → s.brimDue x = false →
        s.divertDue x = false →
        t.tile x = { s.tile x with vol := { (s.tile x).vol with switched := true, ring := (t.tile x).vol.ring, rspill := (t.tile x).vol.rspill } }))) ∧
  ((∀ (s : State) (g a : Nat) (k : Gang), let x := s.tile s.arg.n
    CanSave s g k a →
    (s.arg.b = true ∨ (x.vol.written = false ∧ saveSize < x.saveBytes) →
      Completes .saveTile s (fun t => (t.tile s.arg.n).vol.saveFault = true ∧ (Mem.read t.dev (a + 7)).getLsbD 7 = false ∧
      (∀ o, o ≠ a + 7 → Mem.read t.dev o = Mem.read s.dev o) ∧
      (s.cp.hung = false → t.gang? g = some { k with state := .saveIncomplete } ∧ t.mg.saveErrors = s.mg.saveErrors ++ [g]))) ∧
    (s.arg.b = false → x.vol.written = false → x.saveBytes ≤ saveSize → Completes .saveTile s (fun t => (t.tile s.arg.n).vol.written = true ∧
      (Mem.read t.dev (a + 7)).getLsbD 7 = false ∧ (∀ o, o < 0x200000 → Mem.read t.dev (a + 0x10000 + o) = Mem.read x.pool o) ∧
      (∀ o, o < a ∨ a + 0x220000 ≤ o → Mem.read t.dev o = Mem.read s.dev o) ∧ t.gang? g = some k)) ∧
    (s.arg.b = false → x.vol.written = true → Completes .saveTile s (fun t => (Mem.read t.dev (a + 7)).getLsbD 7 = true ∧
      (∀ o, o < a ∨ a + 8 ≤ o → Mem.read t.dev o = Mem.read s.dev o) ∧
      ((∃ y ∈ k.tiles, y ≠ s.arg.n ∧ (s.tile y).vol.saved = false) → (∀ y ∈ k.tiles, (s.tile y).vol.saveFault = false) →
        (t.tile s.arg.n).vol.saved = true ∧ t.gang? g = some k) ∧
      ((∀ y ∈ k.tiles, (s.tile y).vol.saveFault = false ∧ (y ≠ s.arg.n → (s.tile y).vol.saved = true)) → s.cp.hung = false →
        (∃ j, t.gang? g = some j ∧ j.state = .switchedOut) ∧ ∀ y ∈ k.tiles, (t.tile y).blk.lr.gang = none)))) ∧
  (∀ (s : State) (k : Gang), let g := s.arg.n
    let r := k.lrec
    s.gang? g = some k → k.state = .switchedOut → s.cp.hung = false → s.mg.halts = [] → (k.d = 0xFFFFFFFFFFFFFFFF ∨ s.time.toNat < k.d.toNat) →
    r.gxo + r.gw ≤ 192 → (∀ x ∈ k.tiles, s.tileFree x = true) →
    (∀ n, n < r.gw * r.gh → ∃ a, k.area n = some a ∧ (Mem.read s.dev (a + 7)).getLsbD 7 = true) →
    Completes .gangResume s (fun t => (∃ j, t.gang? g = some j ∧ j.state = .running) ∧ ∀ i j, i < r.gw → j < r.gh → ∀ a b,
      k.area (r.gw * j + i) = some a → Tbl.look s.cp.saves (g * 65536 + (r.gw * j + i)) = some b →
      let x := t.tile (tileNo (r.gxo + i) (r.gyo + j))
      x.pool = s.dev.part (a + 0x10000) 0x200000 ∧ x.blk.lr = (if k.b.toNat < b.lr.brt.toNat then { b.lr with brt := k.b, dln := k.d } else b.lr) ∧
        x.blk.cx = b.cx ∧ x.blk.ni = b.ni ∧
        x.vol.phase = (if s.noFen (tileNo (r.gxo + i) (r.gyo + j)) then .none else .full))) ∧
  (∀ (s : State) (k : Gang), s.gang? s.arg.n = some k → k.state = .saveIncomplete →
    (s.arg.b = false → Completes .saveIncompleteResolution s (fun t => t.gang? s.arg.n = some { k with state := .running, switchAt := none } ∧
      ∀ x ∈ k.tiles, (t.tile x).vol.switched = false ∧ (t.tile x).vol.saveFault = false)) ∧
    (s.arg.b = true → Completes .saveIncompleteResolution s (fun t => t.gang? s.arg.n = some { k with failed := true }))))

/-! ### Arrivals at a core -/

/-- R261, R307 to R313, R377: a message that comes in order goes where R308 sends it and is answered; a duplicate is dropped; a SPAWN is
discarded after brim time; a page answer notice waits and is then applied to its context. R233, R263, R334: an access from another tile
is performed and answered, or refused where it meets a rule of the target. The model's own, by the log: what the log records of reads
and close markers (entry 21), and when an upcall takes no notice any more (entry 49). -/
def Obligations.ArrivalsAreTakenIn : Prop :=
  ((∀ (s : State) (p : Pkt) (m : Msg), let n := s.arg.n
    let x := s.tile n
    InOrder s n p → p.body = .msg m → m.spawn = false → Completes .messageAdmission s (fun t => TakenIn s t n p ∧
      MessagePlaced x (t.tile n) m (x.place m) ∧ Acked s t n p (.ack p.cls p.seq (x.place m).refused))) ∧
  (∀ (s : State) (p : Pkt) (m : Msg), s.arrival (.pool s.arg.n) = some p → p.body = .msg m → m.spawn = false → s.admits s.arg.n = true →
    turnOf (recvNext (s.tile s.arg.n).blk.ni.recv (ownerCode p.src) p.cls) p.seq = .dup →
    Completes .messageAdmission s (fun t => p ∉ t.net ∧ t.tiles = s.tiles)) ∧
  (∀ (s : State) (p : Pkt) (c : Nat), let n := s.arg.n
    let l := (s.tile n).blk.ni.recv
    s.arrival (.pool n) = some p → p.body = .close c → s.admits n = true → (∃ e ∈ l, e.peer = ownerCode p.src ∧ e.cls = p.cls) →
    recvNext l (ownerCode p.src) p.cls = p.seq → Completes .messageAdmission s (fun t => p ∉ t.net ∧ Acked s t n p (.ack p.cls p.seq false) ∧
      (∀ e, e ∈ (t.tile n).blk.ni.recv ↔ e ∈ l ∧ ¬ (e.peer = ownerCode p.src ∧ e.cls = p.cls)) ∧
      (p.cls = 6 → ∀ e ∈ (t.tile n).blk.ni.results, e.1 ≠ ownerCode p.src))) ∧
  (∀ (s : State) (p : Pkt) (c : Nat), let l := (s.tile s.arg.n).blk.ni.recv
    s.arrival (.pool s.arg.n) = some p → p.body = .close c → s.admits s.arg.n = true →
    (∀ e ∈ l, ¬ (e.peer = ownerCode p.src ∧ e.cls = p.cls)) ∨ recvNext l (ownerCode p.src) p.cls ≠ p.seq →
    Completes .messageAdmission s (fun t => p ∉ t.net ∧ t.tiles = s.tiles)) ∧
  (∀ (s : State) (p : Pkt) (m : Msg), let n := s.arg.n
    let x := s.tile n
    InOrder s n p → p.body = .msg m → m.spawn = true →
      (x.blk.lr.brimFired = false → s.brimDue n = false → Completes .spawnAdmission s (fun t => TakenIn s t n p ∧ MessagePlaced x (t.tile n) m x.placeSpawn ∧
        (t.tile n).blk.ni.spc = x.blk.ni.spc - (if x.placeSpawn.refused then 0 else 1) ∧ Acked s t n p (.ack p.cls p.seq x.placeSpawn.refused))) ∧
      (x.blk.lr.brimFired = true → Completes .spawnAdmission s (fun t => TakenIn s t n p ∧ (t.tile n).vol.taskQ = x.vol.taskQ ∧ (t.tile n).pool = x.pool ∧
        (t.tile n).blk.ni.rsc = x.blk.ni.rsc + 1 ∧ (t.tile n).blk.ni.spc = x.blk.ni.spc - 1 ∧ Acked s t n p (.ack p.cls p.seq false)))) ∧
  (∀ (s : State) (p : Pkt) (k : Notice), InOrder s s.arg.n p → p.body = .notice k → s.arg.b = false → (s.tile s.arg.n).vol.notices.length < 8 →
    Completes .pageAnswerNotice s (fun t => TakenIn s t s.arg.n p ∧
      (t.tile s.arg.n).vol.notices = (s.tile s.arg.n).vol.notices ++ [{ k with anum := (s.tile s.arg.n).blk.ni.anum }] ∧
      (t.tile s.arg.n).blk.ni.anum = (s.tile s.arg.n).blk.ni.anum + 1 ∧ Acked s t s.arg.n p (.ack p.cls p.seq false))) ∧
  (∀ (s : State) (k : Notice) (r : List Notice), let x := (s.tile s.arg.n).ctx k.ctx
    s.arg.b = true → s.alive s.arg.n = true → (s.tile s.arg.n).vol.notices = k :: r → Completes .pageAnswerNotice s (fun t => (t.tile s.arg.n).vol.notices = r ∧
      let y := (t.tile s.arg.n).ctx k.ctx
      if k.asid.toNat = (s.asidGen s.arg.n).1 ∧ k.gen.toNat = (s.asidGen s.arg.n).2 ∧ fld x.ups 31 16 = k.tag.toNat ∧ x.ans = 0 ∧ x.upGone = false ∧ x.killed = false
      then y.ans = k.ans.toNat ∧ y.g = x.g ∧ (∀ w len, x.run = .waiting (.park w len) → y.run = .ready ∧ y.pc = x.pc + BitVec.ofNat 64 len) ∧
        ((∀ w len, x.run ≠ .waiting (.park w len)) → y.run = x.run ∧ y.pc = x.pc)
      else y = x))) ∧
  ((∀ (s : State) (p : Pkt) (r : Req), let n := s.arg.n
    let x := s.tile n
    InOrder s n p → p.body = .req r →
      (∀ els z, r.op = .read els z → (∀ e ∈ els, x.refuses false e.1 z = false) → Completes .remotePoolAccess s (fun t => TakenIn s t n p ∧
        (t.tile n).pool = x.pool ∧ Acked s t n p (.reply (r.reply { data := els.flatMap (fun e => bytesAt e.2 (Mem.bytes x.pool e.1 z)) } none)))) ∧
      (∀ els z, r.op = .read els z → (∃ e ∈ els, x.refuses false e.1 z = true) → Completes .remotePoolAccess s (fun t => TakenIn s t n p ∧
        (t.tile n).pool = x.pool ∧ Acked s t n p (.reply (r.reply { refused := some (0x18, r.addr) } none)))) ∧
      (∀ els, r.op = .write els → (∀ e ∈ els, x.refuses true e.1 e.2.length = false) → Completes .remotePoolAccess s (fun t => TakenIn s t n p ∧
        (∀ a, Mem.read (t.tile n).pool a = lastStore els a (Mem.read x.pool a)) ∧ Acked s t n p (.reply (r.reply {} none)))) ∧
      (∀ els, r.op = .write els → (∃ e ∈ els, x.refuses true e.1 e.2.length = true) → Completes .remotePoolAccess s (fun t => TakenIn s t n p ∧
        (t.tile n).pool = x.pool ∧ Acked s t n p (.reply (r.reply { refused := some (0x17, r.addr) } none)))) ∧
      (∀ els cls g, r.op = .stampAdd els cls g → (∃ e ∈ els, x.refuses true e.1 8 = true) → Completes .remotePoolAccess s (fun t => TakenIn s t n p ∧
        (t.tile n).pool = x.pool ∧ Acked s t n p (.reply (r.reply { refused := some (0x17, r.addr) } none)))) ∧
      (∀ op w32 a v w, r.op = .atomic op w32 a v w → x.refuses true a (if w32 then 4 else 8) = true → Completes .remotePoolAccess s (fun t => TakenIn s t n p ∧
        (t.tile n).pool = x.pool ∧ Acked s t n p (.reply (r.reply { refused := some (0x18, r.addr) } none)))) ∧
      (∀ op w32 a v w, r.op = .atomic op w32 a v w → let z := if w32 then 4 else 8
        let old := Mem.nat x.pool a z
        x.refuses true a z = false → Completes .remotePoolAccess s (fun t => TakenIn s t n p ∧
          (∀ b, Mem.read (t.tile n).pool b = match atomNew op (8 * z) old (v.toNat % 2 ^ (8 * z)) (w.toNat % 2 ^ (8 * z)) with
            | some y => Stored x.pool a (leBytes z y) b
            | none => Mem.read x.pool b) ∧
          Acked s t n p (.reply (r.reply { data := bytesAt 0 (leBytes z old) } none))))) ∧
  (∀ (s : State) (p : Pkt) (off c : Nat) (bs : List Byte) (k : BitVec 16), let n := s.arg.n
    let x := s.tile n
    InOrder s n p → p.body = .xwrite off bs c k → Completes .remotePoolAccess s (fun t => TakenIn s t n p ∧
      (∀ a, Mem.read (t.tile n).pool a = if x.refuses true off bs.length = true then Mem.read x.pool a else Stored x.pool off bs a) ∧
      Acked s t n p (.ack p.cls p.seq (x.refuses true off bs.length)))))

/-- R56, R149, R251, R293, R311, R328, R343, R427: answers land. A load's answer writes its register; an acknowledged journal entry
or message leaves; a refusal becomes a pending asynchronous trap, which is delivered to the context when it may take it. -/
def Obligations.AnswersLand : Prop :=
  (∀ (s : State) (p : Pkt) (r : Reply) (q : Req) (id : Nat) (o : Outs), let n := s.arg.n
    let x := (s.tile n).ctx q.ctx
    s.arg.b = true → Answered s n p r q → q.op.reads = true → r.refused = none → r.pop = none → q.out = some id →
    x.outs.find? (fun o => o.id == id) = some o → o.need = 1 → x.discards o = false →
      (∀ d k sg, o.how = .scalar d k sg → o.dropped.contains d = false → Completes .resultLanding s (fun t => p ∉ t.net ∧
        ((t.tile n).ctx q.ctx).outs = x.outs.filter (fun k => k.id != id) ∧ (∀ e ∈ (t.tile n).blk.ni.reqs, e.id ≠ q.id) ∧
        ∀ e, ((t.tile n).ctx q.ctx).rg e = if e = d ∧ e ≠ 0 then scalarWord k sg (gotNat (o.got ++ r.data) 0 k) else x.rg e)) ∧
      (∀ d, o.how = .vec d → Completes .resultLanding s (fun t => p ∉ t.net ∧
        ((t.tile n).ctx q.ctx).outs = x.outs.filter (fun k => k.id != id) ∧ ((t.tile n).ctx q.ctx).g = x.g ∧
        (t.tile n).rv q.ctx d = vecGot ((s.tile n).rv q.ctx d) (o.got ++ r.data)))) ∧
  (∀ (s : State) (o : Outs) (d : RegNo) (w : Word), let x := (s.tile s.arg.n).ctx s.arg.j
    s.arg.b = false → s.alive s.arg.n = true → x.outs.find? (fun o => o.id == s.arg.i) = some o → o.need = 0 → o.how = .fixed [(d, w)] none → o.dropped.contains d = false → x.discards o = false →
    Completes .resultLanding s (fun t => ((t.tile s.arg.n).ctx s.arg.j).outs = x.outs.filter (fun k => k.id != s.arg.i) ∧
      ∀ e, ((t.tile s.arg.n).ctx s.arg.j).rg e = if e = d ∧ e ≠ 0 then w else x.rg e)) ∧
  (∀ (s : State) (p : Pkt) (r : Reply) (q : Req) (j : Nat) (e : JEntry), let n := s.arg.n
    let x := s.tile n
    Answered s n p r q → q.out = none → q.line = none → q.jrn = some j → x.blk.ni.journal.find? (fun e => e.id == j) = some e → e.parts = 1 → e.out = none → e.refused = none →
      (r.refused = none → Completes .journalAcknowledgement s (fun t => p ∉ t.net ∧ (t.tile n).pool = x.pool ∧
        (t.tile n).blk.ni.journal = x.blk.ni.journal.filter (fun k => k.id != j) ∧ ∀ k ∈ (t.tile n).blk.ni.reqs, k.id ≠ q.id)) ∧
      (∀ c a, r.refused = some (c, a) → (∀ k pg kk u, q.op ≠ .scan k pg kk u) → Completes .refusalReceipt s (fun t => p ∉ t.net ∧
        (t.tile n).blk.ni.journal = x.blk.ni.journal.filter (fun k => k.id != j) ∧ RefusalTaken x (t.tile n) e.ctx e.tsn c a (some e.idx)))) ∧
  (∀ (s : State) (p q : Pkt) (cls seq : Nat) (no : Bool), let n := s.arg.n
    let x := s.tile n
    s.arrival (.pool n) = some p → p.body = .ack cls seq no → s.admits n = true →
    x.blk.ni.rtx.find? (fun q => q.dst == p.src && q.cls == cls && q.seq == seq) = some q →
      (no = false → Completes .messageAcknowledgement s (fun t => p ∉ t.net ∧ q ∉ (t.tile n).blk.ni.rtx ∧ (t.tile n).pool = x.pool)) ∧
      (∀ c k, no = true → q.body.owner = some (c, k) → Completes .refusalReceipt s (fun t => p ∉ t.net ∧ q ∉ (t.tile n).blk.ni.rtx ∧
        RefusalTaken x (t.tile n) c k 0x19 q.tra none))) ∧
  (∀ (s : State) (p : Pkt) (q : Nat), s.arrival (.pool s.arg.n) = some p → p.body = .popAck q → s.admits s.arg.n = true →
    Completes .popAcknowledgement s (fun t => p ∉ t.net ∧
      (t.tile s.arg.n).blk.ni.win = (s.tile s.arg.n).blk.ni.win.map (fun e => if e.2 ≠ 0 ∧ e.1.toNat = q then (e.1, e.2 - 1) else e))) ∧
  (∀ (s : State) (p : Pkt) (c : Nat) (k : BitVec 16) (w : Nat × Nat), s.arrival (.pool s.arg.n) = some p → p.body = .optDone c k w → s.admits s.arg.n = true →
    Completes .optimiserCompletionNotice s (fun t => p ∉ t.net ∧ (t.tile s.arg.n).ctx c = { (s.tile s.arg.n).ctx c with ocnt := ((s.tile s.arg.n).ctx c).ocnt - 1 })) ∧
  (∀ (s : State) (e : Pending) (r : List Pending), let x := s.tile s.arg.n
    let c := x.ctx x.blk.hold
    c.asyncDue = true → c.apnd = e :: r → x.vol.halted = false → x.vol.failed = false → x.vol.switched = false → s.unheld s.arg.n = true →
    s.arg.n < 30720 → e.cause ≠ 3 → x.blk.lr.trv ≠ 0 → Completes .asyncTrapDelivery s (fun t =>
      (t.tile s.arg.n).ctx x.blk.hold = { c with apnd := r, epc := c.pc, tra := e.tra, pc := x.blk.lr.trv.setWidth 64, run := .ready,
                                                  trc := BitVec.ofNat 16 (512 + 256 + e.cause.toNat) } ∧
      ∀ j, e.jix = some j → (t.tile s.arg.n).blk.lr.jix = BitVec.ofNat 64 (2 ^ 63 + j.toNat)))

/-! ### Owners off the wafer, and the engines -/

/-- R233, R240, R246, R250, R254, R294, R341 to R343, R371: home slices, CXL ports and gradient endpoints perform a request that is the next
of its source and answer it. The model's own, by the log: what a refusal of a failed core's command names (entry 47), a write of several
granules and requests that wait for each other (entry 57), the combining buffers (entry 63), and host agents' caches (entry 66). -/
def Obligations.OwnersServe : Prop :=
  ((∀ (s : State) (p : Pkt) (r : Req), let k := s.arg.n
    AtSlice s k p r → s.arg.b = false →
      (∀ els z, r.op = .read els z → s.arg.j = 0 → Completes .homeSliceRequest s (fun t => t.dev = s.dev ∧ t.host = s.host ∧
        OwnerAnswered s t (.slice k) p r { data := els.flatMap fun e => bytesAt e.2 (Mem.bytes (s.devView r.src k) e.1 z) } none)) ∧
      (∀ els, r.op = .write els → s.arg.j = 0 → OneGranule els → Completes .homeSliceRequest s (fun t => OwnerAnswered s t (.slice k) p r {} none ∧
        ∀ a, Mem.read t.dev a = lastStore els a (Mem.read (s.flushSlice k).dev a))) ∧
      (∀ els now e rest, r.op = .write els → s.arg.j = 0 → firstGranule els = (now, e :: rest) → Completes .homeSliceRequest s (fun t =>
        p ∉ t.net ∧ t.begun k = s.begun k ++ [.access { r with op := .write (e :: rest) } 0] ∧
        ∀ a, Mem.read t.dev a = lastStore now a (Mem.read (s.flushSlice k).dev a))) ∧
      (∀ op w32 a v w, r.op = .atomic op w32 a v w → s.arg.j = 0 → let z := if w32 then 4 else 8
        let m := (s.flushSlice k).dev
        Completes .homeSliceRequest s (fun t => OwnerAnswered s t (.slice k) p r { data := bytesAt 0 (leBytes z (Mem.nat m a z)) } none ∧
          ∀ b, Mem.read t.dev b = match atomNew op (8 * z) (Mem.nat m a z) (v.toNat % 2 ^ (8 * z)) (w.toNat % 2 ^ (8 * z)) with
            | some y => Stored m a (leBytes z y) b
            | none => Mem.read m b)) ∧
      (∀ op w32 a v, r.op = .reduce op w32 a v → s.arg.j = 0 → Completes .homeSliceRequest s (fun t => OwnerAnswered s t (.slice k) p r {} none ∧
        t.dev = s.dev ∧ t.comb k = s.comb k ++ [{ src := r.src, op := op, w32 := w32, addr := a, x := v }])) ∧
      (∀ els z, r.op = .read els z → s.arg.j ≠ 0 → Completes .homeSliceRequest s (fun t => t.dev = s.dev ∧
        OwnerAnswered s t (.slice k) p r { refused := some (0x18, r.addr) } none)) ∧
      (∀ q g, r.op = .pop q → s.gradQ q = some g → (g.prt = r.part ∨ 32768 ≤ r.src) →
        (g.recs = [] → Completes .homeSliceRequest s (fun t => OwnerAnswered s t (.slice k) p r {} (some (0, 0)) ∧ t.gradQ q = some g)) ∧
        ∀ src c tsn rank n rest, g.recs = (src, c, tsn, rank, n) :: rest → Completes .homeSliceRequest s (fun t => Sent t (.pool src) (.popAck q) ∧
          OwnerAnswered s t (.slice k) p r {} (some (BitVec.ofNat 64 (2 ^ 63 + g.typ % 256 * 2 ^ 32 + rank % 2 ^ 32), vecOfBytes (Mem.bytes s.dev (g.slot n) 128))) ∧
          t.gradQ q = some { g with recs := rest, popped := g.popped ++ [(r.src, src, c, tsn)] }))) ∧
  (∀ (s : State) (p : Pkt) (r : Req) (els : List (Nat × Nat)) (z : Nat), let k := s.arg.n
    let u := r.op.unit
    AtOwner s (.slice k) p r → s.arg.b = false → s.arg.j = 0 → r.heron = true → r.op = .read els z → (s.bank k u).length < 32 →
    s.sliceHeld k r.src (some (bankKey k u)) true = false →
    Completes .homeSliceRequest s (fun t => p ∉ t.net ∧ t.dev = s.dev ∧ t.bank k u = s.bank k u ++ [.access r 0] ∧
      (t.dedupOf (.slice k) r.src).done = (r.seq + 1) % 2 ^ 24)) ∧
  (∀ (s : State) (r : Req) (n : Nat) (els : List (Nat × List Byte)) (l : List HeronEntry), let k := s.arg.n
    s.arg.b = true → s.arg.i = 1 → s.begun k = .access r n :: l → r.op = .write els → OneGranule els → Completes .homeSliceRequest s (fun t =>
      t.begun k = l ∧ Sent t (.pool r.src) (.reply (r.reply {} none)) ∧ ∀ a, Mem.read t.dev a = lastStore els a (Mem.read (s.flushSlice k).dev a))) ∧
  (∀ (s : State) (c : Comb) (l : List Comb), s.arg.b = true → s.arg.i ≠ 1 → s.comb s.arg.n = c :: l → Completes .homeSliceRequest s (fun t =>
    t.comb s.arg.n = l ∧ let z := if c.w32 then 4 else 8
    ∀ a, Mem.read t.dev a = Stored s.dev c.addr (leBytes z (redNew c.op (8 * z) (Mem.nat s.dev c.addr z) (c.x.toNat % 2 ^ (8 * z)))) a)) ∧
  (∀ (s : State) (p : Pkt) (r : Req), let k := s.arg.n
    AtOwner s (.port k) p r →
      (∀ els z, r.op = .read els z → s.arg.j = 0 → Completes .cxlPortRequest s (fun t => t.dev = s.dev ∧ t.host = s.host ∧
        OwnerAnswered s t (.port k) p r { data := els.flatMap fun e => bytesAt e.2 (Mem.bytes s.host e.1 z) } none)) ∧
      (∀ els, r.op = .write els → s.arg.j = 0 → Completes .cxlPortRequest s (fun t => OwnerAnswered s t (.port k) p r {} none ∧ t.dev = s.dev ∧
        ∀ a, Mem.read t.host a = lastStore els a (Mem.read s.host a))) ∧
      (∀ els, r.op = .write els → s.arg.j ≠ 0 → Completes .cxlPortRequest s (fun t => t.host = s.host ∧
        OwnerAnswered s t (.port k) p r { refused := some (0x17, r.addr) } none)))) ∧
  ((∀ (s : State) (p : Pkt) (r : Req) (q typ wm rank : Nat) (rec : Vec) (g : GradQ), let k := s.arg.n
    AtOwner s (.slice k) p r → s.arg.b = false → s.sliceHeld k r.src none true = false → r.op = .push q typ wm rank rec → s.gradQ q = some g →
      (typ = g.typ → wm = g.window → r.src ∈ g.pushers → g.prt = r.part → s.writesStable r.src typ rec = false → Completes .gradientPushArrival s (fun t => OwnerAnswered s t (.slice k) p r {} none ∧
        t.gradQ q = some { g with tail := g.tail + 1, recs := g.recs ++ [(r.src, r.ctx, r.tsn, rank, g.tail)] } ∧
        ∀ a, Mem.read t.dev a = Stored s.dev (g.slot g.tail) (vecBytes rec) a)) ∧
      (typ ≠ g.typ ∨ wm ≠ g.window ∨ r.src ∉ g.pushers ∨ g.prt ≠ r.part ∨ s.writesStable r.src typ rec = true → Completes .gradientPushArrival s (fun t => t.gradQ q = some g ∧ OwnerAnswered s t (.slice k) p r { refused := some (0x17, r.addr) } none))) ∧
  (∀ (s : State) (typ depth window prt : Nat) (l : List Nat), s.arg.b = true → s.arg.nums = typ :: depth :: window :: prt :: l → typ < 256 →
    16 ≤ depth → depth ≤ 4096 → 1 ≤ window → window ≤ 16 → l.length ≤ depth / window → s.arg.i < 2048 → s.arg.i % 24 = s.arg.n →
    s.arg.w.toNat + 128 * depth ≤ deviceEnd →
    Completes .gradientPushArrival s (fun t =>
      t.gradQ s.arg.i = some { typ := typ, depth := depth, window := window, pushers := l, prt := prt, base := s.arg.w.toNat, tail := 0, recs := [], popped := [] })) ∧
  (∀ (s : State) (k : Gang), let a := s.arg.w.toNat
    let m := (s.flushSlice (sliceOf a)).dev
    let prt := (s.queue k.queue).prt.toNat
    s.gang? s.arg.n = some k → s.optimiserRuns = true →
      (s.arg.b = false → a % 8 = 0 → (∃ e ∈ s.regions prt, e.1 ≤ a ∧ a + 8 ≤ e.1 + e.2.1) → Completes .sweepVisit s (fun t => ∀ b, Mem.read t.dev b =
        match sweepWord (s.sliceDecay (sliceOf a) prt) (Mem.nat m a 8) (s.coreStep s.arg.n) with
        | some w => Stored m a (leBytes 8 w) b
        | none => Mem.read m b)) ∧
      (let l := (Tbl.get s.rim.sweep (16 * sliceOf a + prt) []).filter (fun e => e.1 != a)
      s.arg.b = true → l.length < 16 → a + s.arg.x.toNat ≤ deviceEnd → Completes .sweepVisit s (fun t => t.dev = s.dev ∧
        Tbl.get t.rim.sweep (16 * sliceOf a + prt) [] = l ++ [(a, s.arg.x.toNat, s.coreStep s.arg.n)]))) ∧
  (∀ s : State, let a := s.arg.w.toNat
    (s.arg.b = false → Completes .cxlMemAccess s (fun t => t = s)) ∧
    (s.arg.b = true → s.arg.i = 1 → Completes .cxlMemAccess s (fun t => ∀ b, Mem.read t.host b = Stored s.host a s.arg.bytes b)) ∧
    (s.arg.b = true → s.arg.i ≠ 1 → a + s.arg.bytes.length ≤ deviceEnd → Completes .cxlMemAccess s (fun t => t.host = s.host ∧
      ∀ b, Mem.read t.dev b = Stored ((List.range 24).foldl State.flushSlice s).dev a s.arg.bytes b))) ∧
  (∀ s : State, 32768 ≤ s.arg.n → s.rim.failedCores.contains s.arg.n = false → Completes .optimiserCoreFailure s (fun t =>
    t.rim.failedCores = s.rim.failedCores ++ [s.arg.n] ∧ (t.tile s.arg.n).vol.failed = true ∧
    ∀ q g, (q, g) ∈ s.rim.grad → ∀ src c tsn, (s.arg.n, src, c, tsn) ∈ g.popped → Sent t (.pool src) (.optDone c tsn (s.arg.n, 0)) ∧
      ∃ r, Sent t (.pool src) (.reply r) ∧ r.ctx = c ∧ r.tsn = tsn ∧ r.refused = some (0x17, BitVec.ofNat 64 q))))

/-- R264, R335, R337, R338, R345 to R351: a copy sends its next line as a request and goes on with the answer, and its token lands when it
has ended; a Heron unit serves its queue row by row: appends, accesses, and scans for a query, whose records and token land. The model's
own, by the log: a line is a request and its answer, windows, and lines past a failure (entry 56), and the order of Heron units' work
(entry 57). -/
def Obligations.CopiesAndHeronUnitsRun : Prop :=
  ((∀ (s : State) (c : CopyOp), let n := s.arg.n
    let own := { s with cur := n }.ownAddr
    (∀ a b, LineReady s c (.at (.own a)) (.at (.own b)) → Completes .copyDataArrival s (fun t => LineMoved s t c ∧
      ∀ x, Mem.read (t.tile n).pool x = Stored (s.tile n).pool b (c.overlap own s.fresh b (Mem.bytes (s.tile n).pool a 128)) x)) ∧
    (∀ o a st b, LineReady s c (.at (.far o a st)) (.at b) → ChannelFor s n o → Completes .copyDataArrival s (fun t =>
      LineSent s t c o (.read [(a, 0)] 128) .reading ∧ (t.tile n).pool = (s.tile n).pool ∧ t.dev = s.dev)) ∧
    (∀ a o b st, LineReady s c (.at (.own a)) (.at (.far o b st)) → ChannelFor s n o → Completes .copyDataArrival s (fun t =>
      LineSent s t c o (.write [(b, Mem.bytes (s.tile n).pool a 128)]) .writing ∧ (t.tile n).pool = (s.tile n).pool ∧ t.dev = s.dev)) ∧
    (∀ p m a b, LineReady s c (.window p m a) (.at b) →
      (c.ovl = false → (s.tile n).blk.lr.ord = false → ChannelFor s n (.belvis p) → Completes .copyDataArrival s (fun t =>
        LineSent s t c (.belvis p) (.read [(windowAddr m a, 0)] 128) .reading ∧ (t.tile n).pool = (s.tile n).pool)) ∧
      (c.ovl = true ∨ (s.tile n).blk.lr.ord = true → Completes .copyDataArrival s (fun t =>
        t.copyOf n c.idx = some { c with st := 4 } ∧ (t.tile n).pool = (s.tile n).pool))) ∧
    (∀ a p m b, LineReady s c (.at (.own a)) (.window p m b) → ChannelFor s n (.belvis p) → Completes .copyDataArrival s (fun t =>
      LineSent s t c (.belvis p) (.write [(windowAddr m b, Mem.bytes (s.tile n).pool a 128)]) .writing ∧ (t.tile n).pool = (s.tile n).pool)) ∧
    (∀ st q, LineReady s c (.fail st) q → Completes .copyDataArrival s (fun t => t.copyOf n c.idx = some { c with st := st } ∧ (t.tile n).pool = (s.tile n).pool)) ∧
    (∀ p m a q k b, LineReady s c (.window p m a) (.window q k b) → Completes .copyDataArrival s (fun t =>
      t.copyOf n c.idx = some { c with st := 4 } ∧ (t.tile n).pool = (s.tile n).pool))) ∧
  (∀ (s : State) (p : Pkt) (r : Reply) (q : Req) (c : CopyOp) (id : Nat), let n := s.arg.n
    LineAnswered s p r q c →
      (∀ b, c.stage = .reading id → r.refused = none → s.linePlace n true (c.dstAt c.lines) = .at (.own b) → Completes .copyDataArrival s (fun t =>
        p ∉ t.net ∧ LineMoved s t c ∧ ∀ x, Mem.read (t.tile n).pool x =
          Stored (s.tile n).pool b (c.overlap { s with cur := n }.ownAddr s.fresh b (r.data.map (fun e => e.2))) x)) ∧
      (c.stage = .writing id → r.refused = none → Completes .copyDataArrival s (fun t => p ∉ t.net ∧ LineMoved s t c ∧ (t.tile n).pool = (s.tile n).pool)) ∧
      (c.stage = .reading id ∨ c.stage = .writing id → r.refused.isSome = true → Completes .copyDataArrival s (fun t => p ∉ t.net ∧
        t.copyOf n c.idx = some { c with st := if c.stage = .reading id then 1 else 2, stage := .idle } ∧ (t.tile n).pool = (s.tile n).pool))) ∧
  (∀ (s : State) (c : CopyOp), let n := s.arg.n
    s.copyOf n s.arg.i = some c → c.stage = .idle → TokenWaits s n c.ctx c.id c.tok →
      (c.st = 0 → c.total ≤ c.lines → s.unacked n c.idx = 0 → Completes .copyToken s (fun t => TokenLanded s t n c.ctx c.id c.idx c.tok (copyToken 0 c.lines) ∧
        (t.tile n).pool = (s.tile n).pool ∧ (t.tile n).blk.en.copies = (s.tile n).blk.en.copies.filter (fun k => k.idx != c.idx))) ∧
      (c.st ≠ 0 → (c.st = 5 ∨ s.unacked n c.idx = 0) → Completes .copyToken s (TokenLanded s · n c.ctx c.id c.idx c.tok
        (copyToken c.st (c.lines - (if c.st = 5 then s.unacked n c.idx else 0))))))) ∧
  ((∀ (s : State) (r : Req) (pos base z : Nat) (rows : List (Nat × List Byte)), let k := s.arg.n
    accessReady [] (s.bank k s.arg.i) = some (.append r pos base rows z) → OneGranule rows →
    Completes .heronAppendWrite s (fun t => Sent t (.pool r.src) (.reply (r.reply {} none)) ∧
      t.bank k s.arg.i = (s.bank k s.arg.i).filter (fun e => e.req.id != r.id) ∧ ∀ a, Mem.read t.dev a = lastStore rows a (Mem.read (s.flushSlice k).dev a))) ∧
  (∀ (s : State) (r : Req) (pos base z : Nat) (rows now rest : List (Nat × List Byte)) (e : Nat × List Byte), let k := s.arg.n
    accessReady [] (s.bank k s.arg.i) = some (.append r pos base rows z) → firstGranule rows = (now, e :: rest) →
    Completes .heronAppendWrite s (fun t => t.net = s.net ∧ (∀ a, Mem.read t.dev a = lastStore now a (Mem.read (s.flushSlice k).dev a)) ∧
      t.bank k s.arg.i = (s.bank k s.arg.i).map (fun x => if x.req.id == r.id then .append r pos base (e :: rest) z else x))) ∧
  (∀ (s : State) (r : Req) (z w : Nat) (els : List (Nat × Nat)), let k := s.arg.n
    accessReady [] (s.bank k s.arg.i) = some (.access r z) → r.op = .read els w → Completes .heronAppendWrite s (fun t => t.dev = s.dev ∧
      t.bank k s.arg.i = (s.bank k s.arg.i).filter (fun e => e.req.id != r.id) ∧
      Sent t (.pool r.src) (.reply (r.reply { data := els.flatMap fun e => bytesAt e.2 (Mem.bytes (s.devView r.src k) e.1 w) } none)))) ∧
  (∀ (s : State) (x : Scanning) (q : Query), let k := s.arg.n
    let l := s.bank k s.arg.i
    let row := rowScan (s.devView x.r.src k) q x.page x.k s.arg.i x.rows x.t (s.arg.j != 0)
    s.arg.b = false → s.scanNow l = some x → s.queryOf x.r.src x.query = some q → overdue [] l = false →
      (∀ n u, row = .on n u → Completes .heronScan s (fun t => t.dev = s.dev ∧ t.net = s.net ∧ t.bank k s.arg.i =
        (countAhead [] l).map (fun e => if e.req.id == x.r.id then .scan x.r x.query x.page x.k s.arg.i n u else e))) ∧
      (∀ bs, row = .record bs → Completes .heronScan s (fun t => t.dev = s.dev ∧ t.bank k s.arg.i = (countAhead [] l).filter (fun e => e.req.id != x.r.id) ∧
        Sent t (.pool x.r.src) (.reply (x.r.reply { data := bytesAt 0 bs } none))))) ∧
  (∀ (s : State) (p : Pkt) (r : Reply) (q : Req) (id pg k u : Nat) (y : Query), let n := s.arg.n
    let slot := 256 * (k - y.k0) + u
    s.arg.b = true → Answered s n p r q → r.refused = none → q.op = .scan id pg k u → s.queryOf n id = some y → Completes .heronScan s (fun t => p ∉ t.net ∧
      (∀ a, Mem.read (t.tile n).pool a = Stored (s.tile n).pool (y.area + (16 + 4 * y.dim) * slot) (r.data.map fun e => e.2) a) ∧
      ∃ z, t.queryOf n id = some z ∧ z.left = y.left - 1)) ∧
  (∀ (s : State) (q : Query), let n := s.arg.n
    (s.tile n).blk.en.queries.find? (fun q => q.idx == s.arg.i) = some q → q.left = 0 → q.refused = false → TokenWaits s n q.ctx q.id q.tok → Completes .heronToken s (fun t =>
      TokenLanded s t n q.ctx q.id (34 + q.idx) q.tok (heronTokenWord (if q.emask = 0 then 0 else 1) q.total q.emask.toNat) ∧
      (t.tile n).blk.en.queries = (s.tile n).blk.en.queries.filter (fun k => k.idx != q.idx))))

/-- R205, R206, R209, R210, R217 to R219, R221, R227, R433: commands of the array start under the lease and complete with their results,
those of the accumulator path in order; leases pass on; an exchange is cancelled, held back by a boundary, or moves every fragment. The
model's own, by the log: the exchange in two steps (entry 46). -/
def Obligations.TheArrayAndTheExchangeRun : Prop :=
  (∀ (s : State) (e : ACmdEntry), let n := s.arg.n
    let x := s.tile n
    s.holds n = true → x.vol.failed = false → x.blk.arr.queue.find? (fun e => !e.started) = some e → x.toAbandon e = false → (s.cluster (clusterOf n)).started < 15 →
      (s.arg.j = 0 → Completes .arrayCommandStart s (fun t => (t.cluster (clusterOf n)).started = (s.cluster (clusterOf n)).started + 1 ∧
        (t.cluster (clusterOf n)).holder = (s.cluster (clusterOf n)).holder ∧ (t.tile n).pool = x.pool ∧
        (∃ k ∈ (t.tile n).blk.arr.queue, k.seq = e.seq ∧ k.cmd = e.cmd ∧ k.started = true ∧
          ∀ d off w l keep, e.cmd = .mma d off w l keep → k.held = Mem.bytes x.pool off (actSize l) ∧ k.wt = x.slotNow (x.blk.arr.slots.toList.getD w.toNat WSlot.empty)) ∧
        (∀ af wf, e.cmd = .mfmt af wf → (t.tile n).blk.arr.af = af ∧ (t.tile n).blk.arr.wf = wf) ∧
        ∀ (w : Bool) off f, e.cmd = .mldw w off f → (t.tile n).blk.arr.slots.toList.getD w.toNat WSlot.empty =
          { st := 1, fmt := f, off := BitVec.ofNat 21 off, img := Mem.bytes x.pool off (planeSize f.toNat) })) ∧
      (s.arg.j ≠ 0 → Completes .arrayCommandStart s (fun t => (t.tile n).blk.arr.sqd = e.seq ∧ (∀ k ∈ (t.tile n).blk.arr.queue, k.seq ≠ e.seq) ∧
        (t.tile n).pool = x.pool ∧ RefusalTaken x (t.tile n) e.ctx e.tsn 0x12 (BitVec.ofNat 64 e.seq.toNat) none))) ∧
  (∀ (s : State) (e : ACmdEntry), let n := s.arg.n
    let l := (s.tile n).blk.arr.queue
    completes l s.arg.j = some e → (s.tile n).vol.failed = false →
      Completes .arrayCommandCompletion s (fun t => CommandDone (s.tile n) (t.tile n) e ∧
        ∀ d, d < 8 → e.cmd.dest = some d → (∀ k ∈ l, k.seq ≠ e.seq → k.cmd.dest ≠ some d) → (s.cluster (homeCluster n)).running = none → ((t.tile n).blk.arr.acc d).ifl = false) ∧
      (s.arg.b = true → Completes .columnResidueMismatch s (fun t => CommandDone (s.tile n) (t.tile n) e ∧ t.mg.softErrors = s.mg.softErrors + 1)) ∧
      (s.arg.b = false → Completes .columnResidueMismatch s (fun t => 17 ∈ t.badSites (s.pcnOf (clusterOf n)) ∧
        ∀ p, p < 16 → (t.tile (tileAt (clusterOf n) p)).vol.failed = true))) ∧
  (∀ (s : State) (p : Nat), (s.cluster s.arg.n).holder = some p → Completes .leaseEnd s (fun t =>
    ((∀ q, q < 16 → (s.tile (tileAt s.arg.n q)).blk.arr.requesting = false) → (t.cluster s.arg.n).holder = none) ∧
    ∀ j, j < 16 → (s.tile (tileAt s.arg.n ((p + 1 + j) % 16))).blk.arr.requesting = true →
      (∀ i, i < j → (s.tile (tileAt s.arg.n ((p + 1 + i) % 16))).blk.arr.requesting = false) → (t.cluster s.arg.n).holder = some ((p + 1 + j) % 16))) ∧
  (∀ (s : State) (d r m : Nat → Nat), let k := s.arg.n
    let x := fun p => s.tile (tileAt k p)
    (∀ p, p < 16 → (x p).blk.arr.mx = some (d p, r p, m p)) → MayExchange s k →
      ((∃ p, p < 16 ∧ m p ≠ m 0) → NoReplay s k → Completes .exchangeStart s (fun t => ∀ p, p < 16 → (t.tile (tileAt k p)).blk.arr.mx = none ∧
        RefusalTaken (x p) (t.tile (tileAt k p)) (x p).blk.arr.mxBy.1 (x p).blk.arr.mxBy.2 0x11 0 none)) ∧
      ((∀ p, p < 16 → m p = m 0 ∧ ((x p).blk.arr.acc (d p)).ifl = false ∧ ((x p).blk.arr.acc (r p)).ifl = false) →
        ((s.cluster k).pre = false → NoReplay s k → Completes .exchangeStart s (fun t => (t.cluster k).pre = true ∧
          ∀ p, p < 16 → (t.tile (tileAt k p)).pool = (x p).pool ∧ (t.tile (tileAt k p)).blk.arr = (x p).blk.arr)) ∧
        ((s.cluster k).pre = true → (∀ p, p < 16 → (x p).vol.bounded = true) →
          (∀ p f q g, p < 16 → f < 16 → q < 16 → g < 16 → (s.cluster k).sends (m 0) p f = (s.cluster k).sends (m 0) q g → p = q ∧ f = g) →
          Completes .exchangeStart s (fun t => (t.cluster k).running.isSome = true ∧ (∀ p, p < 16 → (t.tile (tileAt k p)).blk.arr.mx = none) ∧
            ∀ p f, p < 16 → f < 16 → let e := (s.cluster k).sends (m 0) p f
              (t.tile (tileAt k e.1)).fragment (d e.1) e.2 = (x p).fragment (r p) f)))) ∧
  (∀ (s : State) (n : Nat) (l : List (Nat × Nat × Nat)), s.arg.n < 1920 → (s.cluster s.arg.n).running = some (n, l) →
    (∀ e ∈ l, (s.tile (tileAt s.arg.n e.1)).vol.failed = false) → Completes .exchangeEnd s (fun t =>
    (t.cluster s.arg.n).running = none ∧
    ((t.cluster s.arg.n).post = true ↔ ∃ e ∈ l, (t.tile (tileAt s.arg.n e.1)).vol.phase ≠ .none ∨ (t.tile (tileAt s.arg.n e.1)).vol.owed = true) ∧ ∀ e ∈ l, e.1 < 16 → e.2.1 < 8 →
      (∀ c ∈ (s.tile (tileAt s.arg.n e.1)).blk.arr.queue, c.cmd.dest ≠ some e.2.1) →
      ((t.tile (tileAt s.arg.n e.1)).blk.arr.acc e.2.1).ifl = false ∧ (t.tile (tileAt s.arg.n e.1)).pool = (s.tile (tileAt s.arg.n e.1)).pool))

/-! ### Barriers, boundaries and repair -/

/-- R393 to R399, R409: waves sample the pending bytes; a domain completes at every member; the step unit advances with domain 0; a probe
visits its members and returns their sum. The model's own, by the log: an arrival carries the tile's request and overflow bit as they
stand at its ARV, and a completion of domain 0 reaches the home slices each at its own time (entry 29). -/
def Obligations.BarriersComplete : Prop :=
  (∀ (s : State) (k : Gang), let n := s.arg.i % 16
    let d := k.domain n
    let b := fun t => (s.tile t).blk.sy.bytesOf n
    s.gang? s.arg.n = some k → k.state = .running → Completes .barrierWave s (fun t =>
      (∀ x, t.tile x = if x ∈ k.tiles then (s.tile x).modSy (fun y => { y with pch := setFld y.pch n n 0 }) else s.tile x) ∧ ∃ j, t.gang? s.arg.n = some j ∧ j.gst = k.gst ∧
      (let sum := (k.tiles.map b).foldl (· + ·) 0
      ((j.domain n).zero = true ↔ sum = 0) ∧
      ((j.domain n).clear = true ↔ d.clear = true ∨ (d.left = [] ∧ s.allArrived k n = true ∧ sum = 0 ∧ d.zero = true ∧ ∀ t ∈ k.tiles, (s.tile t).blk.sy.pch.getLsbD n = false))))) ∧
  (∀ (s : State) (g : Nat) (k : Gang), let n := s.arg.i % 16
    let core := s.arg.n
    let l := s.membersOf k n
    core < 40000 → (s.tile core).blk.lr.gang = some g → s.gang? g = some k → k.state = .running → s.admits core = true →
      (s.domainDone k n = true → core ∈ l → Completes .domainCompletion s (fun t =>
        let q := if n = 0 then k.stepUnit (l.any fun t => (s.tile t).blk.sy.stqC) (l.any fun t => (s.tile t).blk.sy.ovtC) else k
        CompletedAt (s.tile core) (t.tile core) n (q.gst != k.gst) q.gst (powWord q.ls) ∧
        ∃ j, t.gang? g = some j ∧ j.gst = q.gst ∧ j.ls = q.ls ∧ j.cln = q.cln ∧
          (j.domain n).left = (l ++ (if n = 0 then sliceCodes else [])).erase core)) ∧
      (core ∈ (k.domain n).left → Completes .domainCompletion s (fun t => CompletedAt (s.tile core) (t.tile core) n k.stepped k.gst (powWord k.ls) ∧
        ∃ j, t.gang? g = some j ∧ j.gst = k.gst ∧ (j.domain n).left = (k.domain n).left.erase core))) ∧
  (∀ (s : State) (k : Gang), let key := 16 * (s.arg.n - 40000) + s.gangPart k
    40000 ≤ s.arg.n → s.gang? s.arg.j = some k → k.state = .running → s.arg.n ∈ (k.domain 0).left → Completes .domainCompletion s (fun t =>
      t.tiles = s.tiles ∧ Tbl.look t.rim.decayP key = none ∧
      Tbl.get t.rim.decayA key [] = (Tbl.get s.rim.decayP key []).foldl (fun d e => Tbl.put d e.1 e.2) (Tbl.get s.rim.decayA key []) ∧
      ∃ j, t.gang? s.arg.j = some j ∧ (j.domain 0).left = (k.domain 0).left.erase s.arg.n)) ∧
  (∀ (s : State) (k : Gang) (p : Probe) (r : List Probe) (u : Nat) (l : List Nat), let n := s.arg.i % 16
    let q : Probe := { p with left := l, sum := p.sum + (s.tile u).blk.sy.bytesOf n, black := p.black || (s.tile u).blk.sy.wcol.getLsbD n }
    s.gang? s.arg.n = some k → k.state = .running → Tbl.get k.probes n [] = p :: r → p.left = u :: l → s.quiescent u = true → s.admits u = true →
      (l ≠ [] → Completes .probeVisit s (fun t => (t.tile u).blk.sy.wcol = setFld (s.tile u).blk.sy.wcol n n 0 ∧
        ∃ j, t.gang? s.arg.n = some j ∧ Tbl.get j.probes n [] = q :: r)) ∧
      (∀ o d, l = [] → s.admits p.tile = true → ((s.tile p.tile).ctx p.ctx).outs.find? (fun o => o.how == .probe n) = some o →
        ((s.tile p.tile).ctx p.ctx).outs.find? (fun q => q.id == o.id) = some o → o.gs = [d] →
        o.dropped.contains d = false → ((s.tile p.tile).ctx p.ctx).discards o = false → Completes .probeVisit s (fun t =>
          (∀ e, ((t.tile p.tile).ctx p.ctx).rg e = if e = d ∧ e ≠ 0 then q.word else ((s.tile p.tile).ctx p.ctx).rg e) ∧
          ∃ j, t.gang? s.arg.n = some j ∧ (Tbl.get j.probes n []).length = r.length)))

/-- R143, R328, R400, R435 to R439: a trigger starts a boundary; the cut stages the dirty lines and the block and sends them to the buddy;
its acknowledgement lets the tile resume, and its commit moves the stage into the image; a trigger that came meanwhile is owed; records
become durable and are answered. The model's own, by the log: the phases of a boundary and a trigger that is owed (entry 20), and which
records the log has and what they hold back (entry 21; acknowledgements of messages: entry 15). -/
def Obligations.BoundariesAreTaken : Prop :=
  (∀ s : State, CanStart s s.arg.n →
    let started := fun t : State => (t.tile s.arg.n).vol.phase = .triggered ∧ (t.tile s.arg.n).pool = (s.tile s.arg.n).pool ∧ (t.tile s.arg.n).blk.cx = (s.tile s.arg.n).blk.cx
    (s.counting s.arg.n = true → Completes .intervalTimerExpiry s (fun t => started t ∧ (t.tile s.arg.n).blk.ct.ivt = 0)) ∧
    (s.counting s.arg.n = true → 4096 ≤ (s.tile s.arg.n).dirtyCount → Completes .dirtyCountLimit s started) ∧
    (logLimit ≤ logBytes (s.fen s.arg.n).log → Completes .arrivalLogThreshold s started)) ∧
  (∀ s : State, let x := s.tile s.arg.n
    let f := s.fen s.arg.n
    x.vol.failed = false →
      (x.vol.phase = .triggered → s.drained s.arg.n = true → Completes .stagingAcknowledged s (fun t => (t.tile s.arg.n).vol.phase = .staging ∧
        (t.tile s.arg.n).pool = x.pool ∧ (t.tile s.arg.n).blk.ct.dlb = 0 ∧ (∀ k, k < 8 → ((t.tile s.arg.n).blk.arr.acc k).drt = false) ∧
        (∃ c, (t.fen s.arg.n).oldLog = f.oldLog ++ f.log ++ [c] ∧ c.kind = .cut) ∧ (t.fen s.arg.n).image = f.image ∧
        (∃ p ∈ t.net, p.src = .pool s.arg.n ∧ p.dst = .pool (buddyOf s.arg.n) ∧ p.cls = 7 ∧ p.body = .stage) ∧
        (t.fen s.arg.n).stagedBlock = (t.tile s.arg.n).blk ∧ ∀ n, n < 16384 → x.blk.ct.dlb.getLsbD n = true → (n, Mem.bytes x.pool (128 * n) 128) ∈ (t.fen s.arg.n).stagedLines)) ∧
      (∀ p, x.vol.phase = .staging → s.staged s.arg.n = some p → Completes .stagingAcknowledged s (fun t => p ∉ t.net ∧ t.tile s.arg.n = { x with vol := { x.vol with phase := .committing } } ∧
        t.fen s.arg.n = { f with commitFlag := true }))) ∧
  (∀ s : State, let x := s.tile s.arg.n
    let f := s.fen s.arg.n
    x.vol.phase = .committing → s.mayCommit s.arg.n = true → x.vol.owed = false →
    Completes .commitBoundary s (fun t => t.tile s.arg.n = { x with vol := { x.vol with phase := .none } } ∧
      (∀ a, Mem.read (t.fen s.arg.n).image a = lastStore (f.stagedLines.map fun e => (128 * e.1, e.2)) a (Mem.read f.image a)) ∧
      (t.fen s.arg.n).block = f.stagedBlock ∧ (t.fen s.arg.n).oldLog = [] ∧ (t.fen s.arg.n).log = f.log ∧ RecsAnswered t f.oldLog)) ∧
  (∀ s : State, s.protects s.arg.n = true → (s.tile s.arg.n).vol.phase = .committing → s.mayCommit s.arg.n = true → (s.tile s.arg.n).vol.owed = true →
    Completes .commitBoundary s (fun t => (t.tile s.arg.n).vol.phase = .triggered ∧ (t.fen s.arg.n).oldLog = [])) ∧
  (∀ s : State, let x := s.tile s.arg.n
    let f := s.fen s.arg.n
    x.vol.phase = .full → x.vol.failed = false → s.noFen s.arg.n = false → s.drained s.arg.n = true →
    (s.staging s.arg.n = none → Completes .fullBoundary s (fun t => t.tile s.arg.n = x ∧
      ∃ p ∈ t.net, p.src = .pool s.arg.n ∧ p.dst = .pool (buddyOf s.arg.n) ∧ p.cls = 7 ∧ p.body = .stage)) ∧
    ∀ p, s.staging s.arg.n = some p → p.stage = .arrived → x.vol.owed = false →
    Completes .fullBoundary s (fun t => p ∉ t.net ∧ (t.tile s.arg.n).vol.phase = .none ∧ (t.tile s.arg.n).pool = x.pool ∧ (t.fen s.arg.n).image = x.pool ∧
      (t.fen s.arg.n).block = (t.tile s.arg.n).blk ∧ (t.fen s.arg.n).unprotected = false ∧ (t.fen s.arg.n).oldLog = [] ∧ RecsAnswered t (f.oldLog ++ f.log))) ∧
  (∀ (s : State) (r : LogRec) (l : List LogRec), let f := s.fen s.arg.n
    s.alive s.arg.n = true →
      (ackFirst (s.logged s.arg.n) f.oldLog = some (r, l) → Completes .logRecordAck s (fun t => t.fen s.arg.n = { f with oldLog := l } ∧ RecsAnswered t [r])) ∧
      (ackFirst (s.logged s.arg.n) f.oldLog = none → ackFirst (s.logged s.arg.n) f.log = some (r, l) → Completes .logRecordAck s (fun t => t.fen s.arg.n = { f with log := l } ∧ RecsAnswered t [r]))) ∧
  (∀ (there : Nat → Bool) (r : LogRec) (l : List LogRec), r.durable = false → there r.rid = true →
    ackFirst there (r :: l) = some (r, { r with durable := true } :: l))

/-- R358, R430, R431, R436, R440 to R446, R493: a soft error flips bits of the pool, whose words then mismatch; a detected failure stops the
tile; the repair fences its cluster and restores the checkpoint on the spare site of the cluster; the Causeway update makes the new map
active once every router has its shadow copy; the end of the replay takes the fence away. R75, R450, R451: a halt stops the tiles of its
partition, or all; its release lets them go on; the debugger writes registers and memory of a halted tile. The model's own, by the log:
detections come from the environment (entry 58), the steps of a repair and of a Causeway update (entry 59), and the form of a debugger
write (entry 21). -/
def Obligations.FailuresRepairsAndHalts : Prop :=
  ((∀ s : State, let n := s.arg.n
    n < 30720 →
      (∀ w, s.arg.nums = [w] → let i := w % 2 ^ 24
        Completes .detectionEvent s (fun t => (t.tile n).vol.failed = (s.tile n).vol.failed ∧
          (∀ a, Mem.read (t.tile n).pool a = if a = i / 8 then Mem.read (s.tile n).pool a ^^^ (1 <<< (i % 8)) else Mem.read (s.tile n).pool a) ∧
          ∀ v, (v ∈ (t.tile n).par ↔ if v = i / 64 then v ∉ (s.tile n).par else v ∈ (s.tile n).par))) ∧
      (s.arg.nums = [] → s.arg.b = false → s.arg.j = 0 → (s.tile n).vol.failed = false → Completes .detectionEvent s (fun t => (t.tile n).vol.failed = true ∧
        s.siteOf n ∈ t.badSites (s.pcnOf (clusterOf n)) ∧ (t.fen (partnerOf n)).unprotected = true)) ∧
      (s.arg.nums = [] → s.arg.b = false → s.arg.j ≠ 0 → Completes .detectionEvent s (fun t => 17 ∈ t.badSites (s.pcnOf (clusterOf n)) ∧
        ∀ p, p < 16 → (t.tile (tileAt (clusterOf n) p)).vol.failed = true)) ∧
      (s.arg.nums = [] → s.arg.b = true → (s.tile n).vol.failed = false → s.mg.repairs.contains n = false → (s.tile n).blk.lr.gang.isSome = true → s.noFen n = false →
        Completes .detectionEvent s (fun t => (t.fen n).unprotected = true ∧ (t.tile n).vol.phase = .full ∧ (t.tile n).vol.failed = false))) ∧
  (∀ (s : State) (g : Nat), let n := s.arg.n
    let k := clusterOf n
    let x := s.tile n
    let f := if (s.fen n).commitFlag then (s.fen n).commit else s.fen n
    n < 30720 → x.vol.failed = true → x.vol.detected = false → s.mg.shadow = none → (∀ c ∈ s.mg.repairs, Tbl.get s.mg.repairField c 84 ≠ fieldOf (s.pcnOf k)) →
    s.bracketed k = false → 16 ∉ s.badSites (s.pcnOf k) → 17 ∉ s.badSites (s.pcnOf k) → (∀ p, p < 16 → (s.posMap k p).2 ≠ 16) →
    x.blk.lr.gang = some g → x.vol.phase ≠ .full → (s.fen n).unprotected = false →
    Completes .millinerRepair s (fun t => t.fenced k = true ∧ (t.tile n).pool = f.image ∧ (t.tile n).vol.replay = some (f.oldLog ++ f.log) ∧
      (t.tile n).blk.cx = f.block.cx ∧ (t.tile n).blk.lr = f.block.lr ∧ t.mg.repairs = s.mg.repairs ++ [n] ∧ Tbl.look t.mg.repairField n = some (fieldOf (s.pcnOf k)) ∧
      ∃ d, t.mg.shadow = some d ∧ d.cores = [n] ∧ d.full = [partnerOf n] ∧ d.pos = [(k, Tbl.put (s.cluster k).posmap (posOf n) (posOf n, 16))])) ∧
  (∀ (s : State) (d : Shadow), s.mg.shadow = some d →
    (s.arg.j ≠ 0 → s.arg.n ∈ d.left → (∀ q ∈ s.net, q.dst ≠ .router s.arg.n) → Completes .causewayUpdate s (fun t => t.tiles = s.tiles ∧ t.mg = s.mg ∧
      ∃ q ∈ t.net, q.src = .milliner (fieldOf s.arg.n) ∧ q.dst = .router s.arg.n ∧ q.cls = 7 ∧ q.body = .causeway ∧ q.stage = .queued)) ∧
    (∀ p, s.arg.j = 0 → s.arg.b = true → s.arrival (.router s.arg.n) = some p → Completes .causewayUpdate s (fun t => t.tiles = s.tiles ∧ t.mg.mgen = s.mg.mgen ∧
      p ∉ t.net ∧ ∃ e, t.mg.shadow = some e ∧ e.pcn = d.pcn ∧ e.pos = d.pos ∧ ∀ q, (q ∈ e.left ↔ q ∈ d.left ∧ q ≠ s.arg.n)))) ∧
  (∀ (s : State) (d : Shadow), s.mg.shadow = some d → s.arg.j = 0 → s.arg.b = false → (∀ p ∈ d.left, s.mg.domainsOff.contains (domainOf p) = true) →
    Completes .causewayUpdate s (fun t => t.mg.shadow = none ∧ t.mg.mgen = s.mg.mgen + 1 ∧ t.mg.ovr = d.ovr ∧ t.mg.rowOvr = d.ovr ∧
    (∀ g k r, s.gang? g = some k → Tbl.look d.routes g = some r → t.gang? g = some { k with routes := r }) ∧
    (∀ k x, Tbl.look s.tiles k = some x → (t.tile k).vol.mapg = s.mg.mgen + 1 ∧ (t.tile k).pool = x.pool ∧ (t.tile k).blk = x.blk) ∧
    (∀ c ∈ d.cores, (s.tile c).vol.replay.isSome = true → (t.tile c).vol.failed = false) ∧
    (∀ k p, d.pos = [(k, p)] → (t.cluster k).posmap = p) ∧ ∀ k p, d.pcn = [(k, p)] → t.pcnOf k = p)) ∧
  (∀ s : State, let n := s.arg.n
    (s.tile n).vol.replay = some [] → (s.tile n).vol.failed = false → (s.tile n).vol.owed = false → Completes .replayEnd s (fun t =>
      t.tile n = { s.tile n with vol := { (s.tile n).vol with replay := none } } ∧ n ∉ t.mg.repairs ∧
      ((∀ c ∈ s.mg.repairs, c ≠ n → clusterOf c ≠ clusterOf n) → t.fenced (clusterOf n) = false) ∧
      (∀ p ∈ (s.tile n).blk.ni.rtx, ∃ q ∈ t.net, q.src = p.src ∧ q.dst = p.dst ∧ q.cls = p.cls ∧ q.seq = p.seq) ∧
      ∀ r ∈ (s.tile n).blk.ni.reqs, ∃ q ∈ t.net, q.src = .pool n ∧ q.dst = r.owner ∧ q.cls = 6 ∧ q.seq = r.seq))) ∧
  ((∀ (s : State) (k : Nat) (x : Tile), Tbl.look s.tiles k = some x → k < 30720 → (x.vol.halted = true ∨ (s.unheld k = true ∧ s.brimDue k = false ∧ s.divertDue k = false)) →
    (s.arg.n ≤ 16 → s.mg.halts.contains s.arg.n = false → Completes .debugHaltRequest s (fun t => t.mg.halts = s.arg.n :: s.mg.halts ∧
      t.tile k = { x with vol := { x.vol with halted := decide (16 ∈ t.mg.halts) || (x.blk.lr.gang.isSome && decide (x.blk.lr.prt ∈ t.mg.halts)) } })) ∧
    Completes .debugHaltRelease s (fun t => t.mg.halts = s.mg.halts.filter (fun h => h != s.arg.n) ∧
      t.tile k = { x with vol := { x.vol with halted := decide (16 ∈ t.mg.halts) || (x.blk.lr.gang.isSome && decide (x.blk.lr.prt ∈ t.mg.halts)) } })) ∧
  (∀ (s : State) (n : Nat), (s.tile n).vol.halted = true → (s.tile n).vol.failed = false →
    (∀ c r v, s.arg.dbg = some (.greg n c r v) → Completes .debuggerWrite s (fun t => (t.tile n).pool = (s.tile n).pool ∧
      (t.tile n).blk.cx = ((s.tile n).modCtx c fun k => k.wg r v).blk.cx)) ∧
    (∀ c r v, s.arg.dbg = some (.preg n c r v) → Completes .debuggerWrite s (fun t => (t.tile n).pool = (s.tile n).pool ∧
      (t.tile n).blk.cx = ((s.tile n).modCtx c fun k => k.wp r v).blk.cx)) ∧
    (∀ c r v, s.arg.dbg = some (.sreg n c r v) → Completes .debuggerWrite s (fun t => (t.tile n).pool = (s.tile n).pool ∧
      (t.tile n).blk.cx = ((s.tile n).modCtx c fun k => k.ws r (strFields v)).blk.cx)) ∧
    (∀ c v, s.arg.dbg = some (.pc n c v) → Completes .debuggerWrite s (fun t => (t.tile n).ctx c = { (s.tile n).ctx c with pc := v })) ∧
    (∀ c v, s.arg.dbg = some (.sys n c 0x010 v) → Completes .debuggerWrite s (fun t => (t.tile n).blk.lr.dln = v ∧ (t.tile n).blk.cx = (s.tile n).blk.cx)) ∧
    (∀ c v, s.arg.dbg = some (.sys n c 0x002 v) → Completes .debuggerWrite s (fun t => (t.tile n).blk.lr.tid = v.setWidth 16 ∧ (t.tile n).blk.cx = (s.tile n).blk.cx)) ∧
    (∀ c v, s.arg.dbg = some (.sys n c 0x009 v) → Completes .debuggerWrite s (fun t => (t.tile n).blk.lr.part = v &&& 0xFF00FF ∧ (t.tile n).blk.cx = (s.tile n).blk.cx)) ∧
    (∀ c v, s.arg.dbg = some (.sys n c 0x015 v) → Completes .debuggerWrite s (fun t => (t.tile n).vol.mapg = v.setWidth 32 ∧ (t.tile n).blk.cx = (s.tile n).blk.cx)) ∧
    (∀ k v, k < 8 → s.arg.dbg = some (.acc n k v) → Completes .debuggerWrite s (fun t => (t.tile n).blk.arr.acc k =
      { vld := v.getLsbD 7, drt := v.getLsbD 6, ifl := v.getLsbD 5, own := BitVec.ofNat 3 (fld v 2 0) } ∧ (t.tile n).pool = (s.tile n).pool)) ∧
    (∀ off bs, s.arg.dbg = some (.pool n off bs) → off < (s.tile n).blk.lr.xb.toNat → Completes .debuggerWrite s (fun t => (t.tile n).pool = (s.tile n).pool)) ∧
    ∀ off bs, s.arg.dbg = some (.pool n off bs) → (s.tile n).blk.lr.xb.toNat ≤ off → Completes .debuggerWrite s (fun t => ∀ a, Mem.read (t.tile n).pool a = Stored (s.tile n).pool off bs a)))

/-! ### Packets under way and links -/

/-- R306, R328, R354, R355, R357, R370, R432, R444, R485: a packet that may leave is injected, passes the egress hold, is forwarded router
by router and arrives; unacknowledged ones are sent again, and an idle channel closes. R457 to R459, R482 to R486: a module's
transmitter fills a flit with whole packets, the receiver takes flits in order and names the next one it expects after a CRC failure;
lanes fail, and retraining halves the module or takes it out of service; frames of a Belvis port arrive in order and are sent again. The
model's own, by the log: the stages of a packet, its loss at a router without power and what a close marker waits for (entry 15), where
the Milliner's packets join (entry 22), frames of a Belvis port (entry 60), and lines as requests to it (entry 56). -/
def Obligations.PacketsAndLinks : Prop :=
  ((∀ (s : State) (core : Nat) (p : Pkt), s.arg.n = core → core < 40000 → (s.tile core).vol.failed = false → (s.tile core).vol.switched = false →
    p ∈ s.net → p.src = .pool core → p.stage = .queued → p.cls ≤ 7 → s.mayLeave core p = true →
    (∀ q ∈ (s.tile core).blk.en.queries, q.pages = [] ∨ (s.tile core).queryTurn q = false) →
    Completes .niInjection s (fun t => ∃ q ∈ s.net, q.src = .pool core ∧ q.stage = .queued ∧ s.mayLeave core q = true ∧
      { q with stage := .held, pcn := match q.dst with | .pool d => s.pcnOf (homeCluster d) | _ => 0 } ∈ t.net)) ∧
  (∀ (s : State) (core : Nat) (q : Query), s.arg.n = core → core < 40000 → (s.tile core).vol.failed = false → (s.tile core).vol.switched = false →
    (s.tile core).vol.replay = none → (s.tile core).blk.en.queries.find? (fun q => !q.pages.isEmpty && (s.tile core).queryTurn q) = some q →
    (s.startQuery core q).isSome = true → Completes .niInjection s (fun t => ∀ k ∈ (t.tile core).blk.en.queries, k.id = q.id → k.pages = [])) ∧
  (∀ (s : State) (p : Pkt) (o : Owner), ownerOf s.arg.n = o → (∀ c, o ≠ .pool c) → p ∈ s.net → p.src = o → p.stage = .queued → s.mayLeave s.arg.n p = true →
    Completes .niInjection s (fun t => ∃ q ∈ s.net, q.src = o ∧ q.stage = .queued ∧
      { q with stage := .held, pcn := match q.dst with | .pool d => s.pcnOf (homeCluster d) | _ => 0 } ∈ t.net)) ∧
  (∀ (s : State) (p : Pkt), s.pkt? s.arg.i = some p → p.stage = .held →
    (∀ c, p.src = .pool c → c < 32768 → (s.tile c).vol.failed = false → Completes .egressHoldExpiry s (fun t =>
      t.pkt? s.arg.i = some { p with stage := .hop (s.routerAt c).1 (s.routerAt c).2 })) ∧
    (∀ f n, p.src = .milliner f → p.dst = .router n → Completes .egressHoldExpiry s (fun t =>
      t.pkt? s.arg.i = some { p with stage := .hop (millinerAt n).1 (millinerAt n).2 })) ∧
    (∀ c, chipletOf p.src = some c → chipletOf p.dst = some c → (∀ q ∈ s.net, q.id = s.arg.i → ∀ n, q.dst ≠ .belvis n) → Completes .egressHoldExpiry s (fun t => t.pkt? s.arg.i = some { p with stage := .arrived })) ∧
    (∀ c m, chipletOf p.src = some c → chipletOf p.dst ≠ some c → s.moduleFor c p = some m → Completes .egressHoldExpiry s (fun t =>
      t.pkt? s.arg.i = some { p with stage := .link m false }))) ∧
  (∀ (s : State) (p : Pkt) (x y : Int), s.pkt? s.arg.i = some p → p.stage = .hop x y →
    (∀ c, p.dst = .pool c → c < 32768 →
      (s.routerAt c = (x, y) → Completes .packetHop s (fun t => t.pkt? s.arg.i = some { p with stage := .arrived, pcn := s.pcnOf (homeCluster c) })) ∧
      (s.routerAt c ≠ (x, y) → let e := through x y (s.portFor p x y (s.routerAt c).1 (s.routerAt c).2)
        ((∀ n, pcnAt e.1 e.2 = some n → s.mg.domainsOff.contains (domainOf n) = false) →
          Completes .packetHop s (fun t => t.pkt? s.arg.i = some { p with stage := .hop e.1 e.2, pcn := s.pcnOf (homeCluster c) })) ∧
        (∀ n, pcnAt e.1 e.2 = some n → s.mg.domainsOff.contains (domainOf n) = true →
          (p.cls ≠ 0 → p.cls ≠ 7 → Completes .packetHop s (fun t => p ∉ t.net)) ∧
          (p.cls = 0 ∨ p.cls = 7 → Completes .packetHop s (fun t => t.pkt? s.arg.i = some { p with stage := .queued }))))) ∧
    (∀ c m, chipletOf p.dst = some c → s.moduleFor c p = some m → rimRouter c (m % 12) = (x, y) →
      Completes .packetHop s (fun t => ∃ q, t.pkt? s.arg.i = some q ∧ q.stage = .link m true ∧ q.body = p.body))) ∧
  (∀ s : State, s.alive s.arg.n = true →
    (∀ p, (s.tile s.arg.n).blk.ni.rtx[s.arg.i]? = some p → Completes .retransmissionTimeout s (fun t => t.tiles = s.tiles ∧ WaitsAgain t p.src p.dst p.cls p.seq)) ∧
    (∀ r, (s.tile s.arg.n).blk.ni.reqs[s.arg.i]? = some r → Completes .class6RetransmissionTimeout s (fun t => t.tiles = s.tiles ∧
      WaitsAgain t (.pool s.arg.n) r.owner 6 r.seq)) ∧
    (∀ e, (s.tile s.arg.n).blk.ni.send[s.arg.i]? = some e → s.idleChan s.arg.n e = true → Completes .channelIdleClose s (fun t =>
      (∃ q ∈ t.net, q.src = .pool s.arg.n ∧ q.dst = ownerOf e.peer ∧ q.cls = e.cls ∧ q.body = .close e.cls ∧ q.stage = .queued ∧
        q ∈ (t.tile s.arg.n).blk.ni.rtx) ∧
      ∀ c ∈ (t.tile s.arg.n).blk.ni.send, ¬ (c.peer = e.peer ∧ c.cls = e.cls))))) ∧
  ((∀ s : State, let m := s.arg.n
    let b := s.arg.b
    let d := (s.uci m).dir b
    let ids := fillFlit 240 (s.net.filter (fun p => p.stage == .link m b))
    (s.uci m).half ≠ 3 → ids ≠ [] → d.buf.length < 128 → Completes .flitTransmit s (fun t =>
      ((t.uci m).dir b).seq = d.seq + 1 ∧ ((t.uci m).dir b).buf = d.buf ++ [(d.seq, ids)] ∧
      ((t.uci m).dir b).wire = (if (s.uci m).retraining then d.wire else d.wire ++ [(d.seq, ids)]) ∧ ∀ p ∈ t.net, p.id ∈ ids → p.stage = .flit m b)) ∧
  (∀ (s : State) (q : BitVec 8) (ids : List Nat) (r : List (BitVec 8 × List Nat)), let m := s.arg.n
    let b := s.arg.b
    let d := (s.uci m).dir b
    d.wire = (q, ids) :: r → (s.uci m).retraining = false → (s.uci m).half ≠ 3 →
      (s.arg.j = 0 → q = d.expect → (∀ i ∈ ids, i < s.nextId) → (∀ p ∈ s.net, p.id ∈ ids → ∀ n, p.dst ≠ .belvis n) → Completes .flitReceive s (fun t => ((t.uci m).dir b).wire = r ∧ ((t.uci m).dir b).expect = d.expect + 1 ∧
        ∀ p ∈ t.net, p.id ∈ ids → p.stage = if b then .arrived else .hop (rimRouter (m / 12) (m % 12)).1 (rimRouter (m / 12) (m % 12)).2)) ∧
      (s.arg.j = 0 → q ≠ d.expect → Completes .flitReceive s (fun t => t.net = s.net ∧ ((t.uci m).dir b).wire = r ∧ ((t.uci m).dir b).expect = d.expect)) ∧
      (s.arg.j ≠ 0 → d.fails.length < 3 → Completes .flitReceive s (fun t => t.net = s.net ∧ ((t.uci m).dir b).nak = some d.expect ∧
        ((t.uci m).dir b).expect = d.expect ∧ (t.uci m).crc = (s.uci m).crc + 1))) ∧
  (∀ (s : State) (q : BitVec 8), let d := (s.uci s.arg.n).dir s.arg.b
    d.nak = some q → Completes .nakReceive s (fun t => ((t.uci s.arg.n).dir s.arg.b).nak = none ∧
      ((t.uci s.arg.n).dir s.arg.b).wire = d.wire ++ d.buf.dropWhile (fun e => e.1 != q) ∧
      (t.uci s.arg.n).rpl = (s.uci s.arg.n).rpl + BitVec.ofNat 24 (d.buf.dropWhile (fun e => e.1 != q)).length)) ∧
  (∀ s : State, (s.uci s.arg.n).half ≠ 3 → Completes .laneFailure s (fun t => (t.uci s.arg.n).retraining = true ∧ s.arg.i % 64 ∈ (t.uci s.arg.n).failed ∧
    (t.uci s.arg.n).toRim.wire = [] ∧ (t.uci s.arg.n).toWafer.wire = [])) ∧
  (∀ s : State, let bad := (s.uci s.arg.n).failed ++ s.arg.nums
    (s.uci s.arg.n).retraining = true →
      ((∃ l ∈ bad, l < 32) → (∃ l ∈ bad, 32 ≤ l) → Completes .retrainComplete s (fun t => (t.uci s.arg.n).half = 3 ∧ (t.uci s.arg.n).lanes = 0)) ∧
      (((∀ l ∈ bad, 32 ≤ l) ∨ (∀ l ∈ bad, l < 32)) → Completes .retrainComplete s (fun t => (t.uci s.arg.n).lanes = 32 ∧ (t.uci s.arg.n).retraining = false ∧
        ((t.uci s.arg.n).half = 2 ↔ ∃ l ∈ bad, l < 32) ∧ ((t.uci s.arg.n).half = 1 ↔ ∀ l ∈ bad, 32 ≤ l) ∧
        (t.uci s.arg.n).toRim.wire = (s.uci s.arg.n).toRim.buf ∧ (t.uci s.arg.n).toWafer.wire = (s.uci s.arg.n).toWafer.buf))) ∧
  (∀ (s : State) (f : BelvisFrame), let b := s.belvisOf s.arg.n
    s.arg.frame = some f → f.dst = s.rim.moduleNo →
      (f.seq ≠ b.rx → Completes .belvisFrameReceive s (fun t => t.dev = s.dev ∧ (t.belvisOf s.arg.n).rx = b.rx)) ∧
      (f.seq = b.rx → f.lines = [] → (f.ack - b.una).toNat ≤ (b.tx - b.una).toNat → Completes .belvisFrameReceive s (fun t => t.dev = s.dev ∧
        (t.belvisOf s.arg.n).rx = b.rx + 1 ∧ (t.belvisOf s.arg.n).una = f.ack)) ∧
      (∀ a bs, f.seq = b.rx → f.lines = [(a, bs)] → a + 128 ≤ deviceEnd → (∀ r ∈ b.asks, r.op.first ≠ windowAddr f.src.toNat a) →
        Completes .belvisFrameReceive s (fun t => (t.belvisOf s.arg.n).rx = b.rx + 1 ∧ ∀ x, Mem.read t.dev x = Stored s.dev a bs x)) ∧
      (∀ a bs r, f.seq = b.rx → f.lines = [(a, bs)] → b.asks.find? (fun r => r.op.first == windowAddr f.src.toNat a) = some r →
        Completes .belvisFrameReceive s (fun t => t.dev = s.dev ∧ (t.belvisOf s.arg.n).rx = b.rx + 1 ∧
          (t.belvisOf s.arg.n).asks = b.asks.filter (fun q => q.id != r.id) ∧ Sent t (.pool r.src) (.reply (r.reply { data := bytesAt 0 bs } none))))) ∧
  (∀ (s : State) (n : Nat) (p : Pkt) (r : Req), let b := s.belvisOf n
    turnOf (s.dedupOf (.belvis n) r.src).done r.seq = .now →
      (∀ els, r.op = .write els → let t := s.portTakes n p r
        t.belvisOf n = { b with tx := b.tx + 1, out := b.out ++ [(b.tx, r.op.first / 2 ^ 48, r.op.first % 2 ^ 48, els.flatMap (fun e => e.2), r.src, r.line.getD 16)] } ∧
        Sent t p.src (.reply (r.reply {} none)) ∧ t.tiles = s.tiles) ∧
      (∀ els z, r.op = .read els z → let t := s.portTakes n p r
        t.belvisOf n = { b with tx := b.tx + 1, out := b.out ++ [(b.tx, r.op.first / 2 ^ 48, r.op.first % 2 ^ 48, [], r.src, r.line.getD 16)], asks := b.asks ++ [r] } ∧
        t.tiles = s.tiles)) ∧
  (∀ s : State, let b := s.belvisOf s.arg.n
    b.una ≠ b.tx →
      (b.resends < 20 → Completes .belvisResendTimeout s (fun t => t.belvisOf s.arg.n = { b with resends := b.resends + 1 } ∧ t.tiles = s.tiles)) ∧
      (20 ≤ b.resends → Completes .belvisResendTimeout s (fun t => (t.belvisOf s.arg.n).asks = [] ∧
        (∀ r ∈ b.asks, Sent t (.pool r.src) (.reply (r.reply { refused := some (0, r.addr) } none))) ∧ ∀ e ∈ b.out, let u := e.2.2.2.2
        ∀ c, s.copyOf u.1 u.2 = some c → t.copyOf u.1 u.2 = some { c with st := if c.st = 0 then 5 else c.st }))))

/-! ### Memory and privilege over every step -/

/-- Memory as plain data: two memories in canonical form that read alike at every address are equal; writing what already stands there
changes nothing, and writes to disjoint ranges commute. -/
def Obligations.EqualMemoriesAreEqualData : Prop :=
  (∀ m n : Mem, Mem.wf m = true → Mem.wf n = true → (∀ a, Mem.read m a = Mem.read n a) → m = n) ∧
  (∀ (m : Mem) (a k : Nat), Mem.wf m = true → Mem.write m a (Mem.bytes m a k) = m) ∧
  (∀ (m : Mem) (a b : Nat) (x y : List Byte), Mem.wf m = true → (a + x.length ≤ b ∨ b + y.length ≤ a) →
    Mem.write (Mem.write m a x) b y = Mem.write (Mem.write m b y) a x)

/-- The memories of the module are in canonical form at reset: pools, images, device and host memory, and the mailbox window. -/
def Obligations.MemoriesAreInFormAtReset : Prop := Safety.MemoriesOk State.reset

/-- Every step keeps every memory of the module in canonical form: pools, the images of the fen stores, device and host memory, and
the mailbox window. -/
def Obligations.StepsKeepMemoriesInForm : Prop :=
  ∀ s t : State, Safety.MemoriesOk s → step s = .next t → Safety.MemoriesOk t

/-- R96, R144, R425: on a tile no unit enters supervisor mode, and in user mode none changes a register of the supervisor. -/
def Obligations.UnitsOnTilesStayInUserMode : Prop :=
  ∀ (i : Instr) (s t : State) (c : Nat), Instr.isEvent i = false → s.cur < 30720 → s.cx.supervisor = false → exec i s = .next t →
    ((mine s t).ctx c).supervisor = (s.me.ctx c).supervisor ∧ ((mine s t).ctx c).svec = (s.me.ctx c).svec ∧
      ((mine s t).ctx c).sepc = (s.me.ctx c).sepc ∧ ((mine s t).ctx c).sec = (s.me.ctx c).sec ∧ ((mine s t).ctx c).sst = (s.me.ctx c).sst
end

