-- ==== Sys2Proof/Laws/State.lean ====
section
/-! SUPPORT. One lemma per field per update of the state, the cores, their blocks and contexts: what an update leaves
alone, and what it puts where. No later proof unfolds a record update. -/

namespace Sys2Proof.Machine

/-! ### Tables -/

theorem Tbl.look_put_same {α : Type} (t : Tbl α) (k : Nat) (a : α) : Tbl.look (Tbl.put t k a) k = some a := by
  induction t with
  | nil => simp [Tbl.put, Tbl.look]
  | cons e r ih =>
    obtain ⟨i, b⟩ := e
    by_cases h : i = k
    · simp [Tbl.put, Tbl.look, h]
    · simp [Tbl.put, Tbl.look, h, ih]

theorem Tbl.look_put_other {α : Type} (t : Tbl α) (k j : Nat) (a : α) (h : j ≠ k) :
    Tbl.look (Tbl.put t k a) j = Tbl.look t j := by
  induction t with
  | nil => simp [Tbl.put, Tbl.look, Ne.symm h]
  | cons e r ih =>
    obtain ⟨i, b⟩ := e
    by_cases hk : i = k
    · subst hk; simp [Tbl.put, Tbl.look, Ne.symm h]
    · simp [Tbl.put, Tbl.look, hk, ih]

@[simp] theorem Tbl.get_put_same {α : Type} (t : Tbl α) (k : Nat) (a d : α) : Tbl.get (Tbl.put t k a) k d = a := by
  simp [Tbl.get, Tbl.look_put_same]

theorem Tbl.get_put_other {α : Type} (t : Tbl α) (k j : Nat) (a d : α) (h : j ≠ k) :
    Tbl.get (Tbl.put t k a) j d = Tbl.get t j d := by
  simp [Tbl.get, Tbl.look_put_other t k j a h]

/-- Every entry of a table after a put is the one put or an entry from before. -/
theorem Tbl.mem_put {α : Type} (t : Tbl α) (k : Nat) (a : α) (e : Nat × α) (h : e ∈ Tbl.put t k a) :
    e = (k, a) ∨ e ∈ t := by
  induction t with
  | nil => simpa [Tbl.put] using h
  | cons b r ih =>
    obtain ⟨i, b⟩ := b
    by_cases hk : i = k
    · simp only [Tbl.put, hk, if_true, List.mem_cons] at h ⊢
      rcases h with h | h <;> simp [h]
    · simp only [Tbl.put, hk, if_false, List.mem_cons] at h ⊢
      rcases h with h | h
      · simp [h]
      · rcases ih h with h | h <;> simp [h]

/-- A table's entry has a property that the default and every listed entry have. -/
theorem Tbl.get_of_forall {α : Type} {P : α → Prop} (t : Tbl α) (k : Nat) (d : α) (hd : P d)
    (h : ∀ e ∈ t, P e.2) : P (Tbl.get t k d) := by
  induction t with
  | nil => simpa [Tbl.get, Tbl.look] using hd
  | cons e r ih =>
    obtain ⟨i, b⟩ := e
    have hr := ih (fun e he => h e (List.mem_cons_of_mem _ he))
    by_cases hk : i = k
    · simpa [Tbl.get, Tbl.look, hk] using h (i, b) List.mem_cons_self
    · simpa [Tbl.get, Tbl.look, hk] using hr


/-- A vector's entry after a write at an index. -/
theorem vector_get_set {α : Type} {n : Nat} (v : Vector α n) (i : Nat) (hi : i < n) (j : Fin n) (x : α) :
    (v.set i x hi).get j = if i = j.val then x else v.get j := by
  show (v.set i x hi)[j.val] = if i = j.val then x else v[j.val]
  exact Vector.getElem_set ..

/-! ### Updates of the state -/

@[simp] theorem State.setTile_cur (s : State) (k : Nat) (t : Tile) : (s.setTile k t).cur = s.cur := rfl
@[simp] theorem State.setTile_fens (s : State) (k : Nat) (t : Tile) : (s.setTile k t).fens = s.fens := rfl
@[simp] theorem State.setTile_clusters (s : State) (k : Nat) (t : Tile) : (s.setTile k t).clusters = s.clusters := rfl
@[simp] theorem State.setTile_dev (s : State) (k : Nat) (t : Tile) : (s.setTile k t).dev = s.dev := rfl
@[simp] theorem State.setTile_host (s : State) (k : Nat) (t : Tile) : (s.setTile k t).host = s.host := rfl
@[simp] theorem State.setTile_net (s : State) (k : Nat) (t : Tile) : (s.setTile k t).net = s.net := rfl
@[simp] theorem State.setTile_rim (s : State) (k : Nat) (t : Tile) : (s.setTile k t).rim = s.rim := rfl
@[simp] theorem State.setTile_cp (s : State) (k : Nat) (t : Tile) : (s.setTile k t).cp = s.cp := rfl
@[simp] theorem State.setTile_mg (s : State) (k : Nat) (t : Tile) : (s.setTile k t).mg = s.mg := rfl
@[simp] theorem State.setTile_clk (s : State) (k : Nat) (t : Tile) : (s.setTile k t).clk = s.clk := rfl
@[simp] theorem State.setTile_sched (s : State) (k : Nat) (t : Tile) : (s.setTile k t).sched = s.sched := rfl
@[simp] theorem State.setTile_arg (s : State) (k : Nat) (t : Tile) : (s.setTile k t).arg = s.arg := rfl
@[simp] theorem State.setTile_fresh (s : State) (k : Nat) (t : Tile) : (s.setTile k t).fresh = s.fresh := rfl
@[simp] theorem State.setTile_nextId (s : State) (k : Nat) (t : Tile) : (s.setTile k t).nextId = s.nextId := rfl
@[simp] theorem State.setTile_devAt (s : State) (k : Nat) (t : Tile) : (s.setTile k t).devAt = s.devAt := rfl

@[simp] theorem State.modTile_cur (s : State) (k : Nat) (f : Tile → Tile) : (s.modTile k f).cur = s.cur := rfl
@[simp] theorem State.modTile_fens (s : State) (k : Nat) (f : Tile → Tile) : (s.modTile k f).fens = s.fens := rfl
@[simp] theorem State.modTile_clusters (s : State) (k : Nat) (f : Tile → Tile) : (s.modTile k f).clusters = s.clusters := rfl
@[simp] theorem State.modTile_dev (s : State) (k : Nat) (f : Tile → Tile) : (s.modTile k f).dev = s.dev := rfl
@[simp] theorem State.modTile_host (s : State) (k : Nat) (f : Tile → Tile) : (s.modTile k f).host = s.host := rfl
@[simp] theorem State.modTile_net (s : State) (k : Nat) (f : Tile → Tile) : (s.modTile k f).net = s.net := rfl
@[simp] theorem State.modTile_rim (s : State) (k : Nat) (f : Tile → Tile) : (s.modTile k f).rim = s.rim := rfl
@[simp] theorem State.modTile_cp (s : State) (k : Nat) (f : Tile → Tile) : (s.modTile k f).cp = s.cp := rfl
@[simp] theorem State.modTile_mg (s : State) (k : Nat) (f : Tile → Tile) : (s.modTile k f).mg = s.mg := rfl
@[simp] theorem State.modTile_clk (s : State) (k : Nat) (f : Tile → Tile) : (s.modTile k f).clk = s.clk := rfl
@[simp] theorem State.modTile_sched (s : State) (k : Nat) (f : Tile → Tile) : (s.modTile k f).sched = s.sched := rfl
@[simp] theorem State.modTile_arg (s : State) (k : Nat) (f : Tile → Tile) : (s.modTile k f).arg = s.arg := rfl
@[simp] theorem State.modTile_fresh (s : State) (k : Nat) (f : Tile → Tile) : (s.modTile k f).fresh = s.fresh := rfl
@[simp] theorem State.modTile_nextId (s : State) (k : Nat) (f : Tile → Tile) : (s.modTile k f).nextId = s.nextId := rfl
@[simp] theorem State.modTile_devAt (s : State) (k : Nat) (f : Tile → Tile) : (s.modTile k f).devAt = s.devAt := rfl

@[simp] theorem State.modMe_cur (s : State) (f : Tile → Tile) : (s.modMe f).cur = s.cur := rfl
@[simp] theorem State.modMe_fens (s : State) (f : Tile → Tile) : (s.modMe f).fens = s.fens := rfl
@[simp] theorem State.modMe_clusters (s : State) (f : Tile → Tile) : (s.modMe f).clusters = s.clusters := rfl
@[simp] theorem State.modMe_dev (s : State) (f : Tile → Tile) : (s.modMe f).dev = s.dev := rfl
@[simp] theorem State.modMe_host (s : State) (f : Tile → Tile) : (s.modMe f).host = s.host := rfl
@[simp] theorem State.modMe_net (s : State) (f : Tile → Tile) : (s.modMe f).net = s.net := rfl
@[simp] theorem State.modMe_rim (s : State) (f : Tile → Tile) : (s.modMe f).rim = s.rim := rfl
@[simp] theorem State.modMe_cp (s : State) (f : Tile → Tile) : (s.modMe f).cp = s.cp := rfl
@[simp] theorem State.modMe_mg (s : State) (f : Tile → Tile) : (s.modMe f).mg = s.mg := rfl
@[simp] theorem State.modMe_clk (s : State) (f : Tile → Tile) : (s.modMe f).clk = s.clk := rfl
@[simp] theorem State.modMe_sched (s : State) (f : Tile → Tile) : (s.modMe f).sched = s.sched := rfl
@[simp] theorem State.modMe_arg (s : State) (f : Tile → Tile) : (s.modMe f).arg = s.arg := rfl
@[simp] theorem State.modMe_fresh (s : State) (f : Tile → Tile) : (s.modMe f).fresh = s.fresh := rfl
@[simp] theorem State.modMe_nextId (s : State) (f : Tile → Tile) : (s.modMe f).nextId = s.nextId := rfl
@[simp] theorem State.modMe_devAt (s : State) (f : Tile → Tile) : (s.modMe f).devAt = s.devAt := rfl

@[simp] theorem State.modCx_cur (s : State) (f : Ctx → Ctx) : (s.modCx f).cur = s.cur := rfl
@[simp] theorem State.modCx_fens (s : State) (f : Ctx → Ctx) : (s.modCx f).fens = s.fens := rfl
@[simp] theorem State.modCx_clusters (s : State) (f : Ctx → Ctx) : (s.modCx f).clusters = s.clusters := rfl
@[simp] theorem State.modCx_dev (s : State) (f : Ctx → Ctx) : (s.modCx f).dev = s.dev := rfl
@[simp] theorem State.modCx_host (s : State) (f : Ctx → Ctx) : (s.modCx f).host = s.host := rfl
@[simp] theorem State.modCx_net (s : State) (f : Ctx → Ctx) : (s.modCx f).net = s.net := rfl
@[simp] theorem State.modCx_rim (s : State) (f : Ctx → Ctx) : (s.modCx f).rim = s.rim := rfl
@[simp] theorem State.modCx_cp (s : State) (f : Ctx → Ctx) : (s.modCx f).cp = s.cp := rfl
@[simp] theorem State.modCx_mg (s : State) (f : Ctx → Ctx) : (s.modCx f).mg = s.mg := rfl
@[simp] theorem State.modCx_clk (s : State) (f : Ctx → Ctx) : (s.modCx f).clk = s.clk := rfl
@[simp] theorem State.modCx_sched (s : State) (f : Ctx → Ctx) : (s.modCx f).sched = s.sched := rfl
@[simp] theorem State.modCx_arg (s : State) (f : Ctx → Ctx) : (s.modCx f).arg = s.arg := rfl
@[simp] theorem State.modCx_fresh (s : State) (f : Ctx → Ctx) : (s.modCx f).fresh = s.fresh := rfl
@[simp] theorem State.modCx_nextId (s : State) (f : Ctx → Ctx) : (s.modCx f).nextId = s.nextId := rfl
@[simp] theorem State.modCx_devAt (s : State) (f : Ctx → Ctx) : (s.modCx f).devAt = s.devAt := rfl

@[simp] theorem State.setG_cur (s : State) (r : RegNo) (v : Word) : (s.setG r v).cur = s.cur := rfl
@[simp] theorem State.setG_fens (s : State) (r : RegNo) (v : Word) : (s.setG r v).fens = s.fens := rfl
@[simp] theorem State.setG_clusters (s : State) (r : RegNo) (v : Word) : (s.setG r v).clusters = s.clusters := rfl
@[simp] theorem State.setG_dev (s : State) (r : RegNo) (v : Word) : (s.setG r v).dev = s.dev := rfl
@[simp] theorem State.setG_host (s : State) (r : RegNo) (v : Word) : (s.setG r v).host = s.host := rfl
@[simp] theorem State.setG_net (s : State) (r : RegNo) (v : Word) : (s.setG r v).net = s.net := rfl
@[simp] theorem State.setG_rim (s : State) (r : RegNo) (v : Word) : (s.setG r v).rim = s.rim := rfl
@[simp] theorem State.setG_cp (s : State) (r : RegNo) (v : Word) : (s.setG r v).cp = s.cp := rfl
@[simp] theorem State.setG_mg (s : State) (r : RegNo) (v : Word) : (s.setG r v).mg = s.mg := rfl
@[simp] theorem State.setG_clk (s : State) (r : RegNo) (v : Word) : (s.setG r v).clk = s.clk := rfl
@[simp] theorem State.setG_sched (s : State) (r : RegNo) (v : Word) : (s.setG r v).sched = s.sched := rfl
@[simp] theorem State.setG_arg (s : State) (r : RegNo) (v : Word) : (s.setG r v).arg = s.arg := rfl
@[simp] theorem State.setG_fresh (s : State) (r : RegNo) (v : Word) : (s.setG r v).fresh = s.fresh := rfl
@[simp] theorem State.setG_nextId (s : State) (r : RegNo) (v : Word) : (s.setG r v).nextId = s.nextId := rfl
@[simp] theorem State.setG_devAt (s : State) (r : RegNo) (v : Word) : (s.setG r v).devAt = s.devAt := rfl

@[simp] theorem State.setP_cur (s : State) (r : RegNo) (v : BitVec 32) : (s.setP r v).cur = s.cur := rfl
@[simp] theorem State.setP_fens (s : State) (r : RegNo) (v : BitVec 32) : (s.setP r v).fens = s.fens := rfl
@[simp] theorem State.setP_clusters (s : State) (r : RegNo) (v : BitVec 32) : (s.setP r v).clusters = s.clusters := rfl
@[simp] theorem State.setP_dev (s : State) (r : RegNo) (v : BitVec 32) : (s.setP r v).dev = s.dev := rfl
@[simp] theorem State.setP_host (s : State) (r : RegNo) (v : BitVec 32) : (s.setP r v).host = s.host := rfl
@[simp] theorem State.setP_net (s : State) (r : RegNo) (v : BitVec 32) : (s.setP r v).net = s.net := rfl
@[simp] theorem State.setP_rim (s : State) (r : RegNo) (v : BitVec 32) : (s.setP r v).rim = s.rim := rfl
@[simp] theorem State.setP_cp (s : State) (r : RegNo) (v : BitVec 32) : (s.setP r v).cp = s.cp := rfl
@[simp] theorem State.setP_mg (s : State) (r : RegNo) (v : BitVec 32) : (s.setP r v).mg = s.mg := rfl
@[simp] theorem State.setP_clk (s : State) (r : RegNo) (v : BitVec 32) : (s.setP r v).clk = s.clk := rfl
@[simp] theorem State.setP_sched (s : State) (r : RegNo) (v : BitVec 32) : (s.setP r v).sched = s.sched := rfl
@[simp] theorem State.setP_arg (s : State) (r : RegNo) (v : BitVec 32) : (s.setP r v).arg = s.arg := rfl
@[simp] theorem State.setP_fresh (s : State) (r : RegNo) (v : BitVec 32) : (s.setP r v).fresh = s.fresh := rfl
@[simp] theorem State.setP_nextId (s : State) (r : RegNo) (v : BitVec 32) : (s.setP r v).nextId = s.nextId := rfl
@[simp] theorem State.setP_devAt (s : State) (r : RegNo) (v : BitVec 32) : (s.setP r v).devAt = s.devAt := rfl

@[simp] theorem State.setV_cur (s : State) (r : RegNo) (x : Vec) : (s.setV r x).cur = s.cur := rfl
@[simp] theorem State.setV_fens (s : State) (r : RegNo) (x : Vec) : (s.setV r x).fens = s.fens := rfl
@[simp] theorem State.setV_clusters (s : State) (r : RegNo) (x : Vec) : (s.setV r x).clusters = s.clusters := rfl
@[simp] theorem State.setV_dev (s : State) (r : RegNo) (x : Vec) : (s.setV r x).dev = s.dev := rfl
@[simp] theorem State.setV_host (s : State) (r : RegNo) (x : Vec) : (s.setV r x).host = s.host := rfl
@[simp] theorem State.setV_net (s : State) (r : RegNo) (x : Vec) : (s.setV r x).net = s.net := rfl
@[simp] theorem State.setV_rim (s : State) (r : RegNo) (x : Vec) : (s.setV r x).rim = s.rim := rfl
@[simp] theorem State.setV_cp (s : State) (r : RegNo) (x : Vec) : (s.setV r x).cp = s.cp := rfl
@[simp] theorem State.setV_mg (s : State) (r : RegNo) (x : Vec) : (s.setV r x).mg = s.mg := rfl
@[simp] theorem State.setV_clk (s : State) (r : RegNo) (x : Vec) : (s.setV r x).clk = s.clk := rfl
@[simp] theorem State.setV_sched (s : State) (r : RegNo) (x : Vec) : (s.setV r x).sched = s.sched := rfl
@[simp] theorem State.setV_arg (s : State) (r : RegNo) (x : Vec) : (s.setV r x).arg = s.arg := rfl
@[simp] theorem State.setV_fresh (s : State) (r : RegNo) (x : Vec) : (s.setV r x).fresh = s.fresh := rfl
@[simp] theorem State.setV_nextId (s : State) (r : RegNo) (x : Vec) : (s.setV r x).nextId = s.nextId := rfl
@[simp] theorem State.setV_devAt (s : State) (r : RegNo) (x : Vec) : (s.setV r x).devAt = s.devAt := rfl

@[simp] theorem State.modCluster_tiles (s : State) (k : Nat) (f : Cluster → Cluster) : (s.modCluster k f).tiles = s.tiles := rfl
@[simp] theorem State.modCluster_cur (s : State) (k : Nat) (f : Cluster → Cluster) : (s.modCluster k f).cur = s.cur := rfl
@[simp] theorem State.modCluster_fens (s : State) (k : Nat) (f : Cluster → Cluster) : (s.modCluster k f).fens = s.fens := rfl
@[simp] theorem State.modCluster_dev (s : State) (k : Nat) (f : Cluster → Cluster) : (s.modCluster k f).dev = s.dev := rfl
@[simp] theorem State.modCluster_host (s : State) (k : Nat) (f : Cluster → Cluster) : (s.modCluster k f).host = s.host := rfl
@[simp] theorem State.modCluster_net (s : State) (k : Nat) (f : Cluster → Cluster) : (s.modCluster k f).net = s.net := rfl
@[simp] theorem State.modCluster_rim (s : State) (k : Nat) (f : Cluster → Cluster) : (s.modCluster k f).rim = s.rim := rfl
@[simp] theorem State.modCluster_cp (s : State) (k : Nat) (f : Cluster → Cluster) : (s.modCluster k f).cp = s.cp := rfl
@[simp] theorem State.modCluster_mg (s : State) (k : Nat) (f : Cluster → Cluster) : (s.modCluster k f).mg = s.mg := rfl
@[simp] theorem State.modCluster_clk (s : State) (k : Nat) (f : Cluster → Cluster) : (s.modCluster k f).clk = s.clk := rfl
@[simp] theorem State.modCluster_sched (s : State) (k : Nat) (f : Cluster → Cluster) : (s.modCluster k f).sched = s.sched := rfl
@[simp] theorem State.modCluster_arg (s : State) (k : Nat) (f : Cluster → Cluster) : (s.modCluster k f).arg = s.arg := rfl
@[simp] theorem State.modCluster_fresh (s : State) (k : Nat) (f : Cluster → Cluster) : (s.modCluster k f).fresh = s.fresh := rfl
@[simp] theorem State.modCluster_nextId (s : State) (k : Nat) (f : Cluster → Cluster) : (s.modCluster k f).nextId = s.nextId := rfl
@[simp] theorem State.modCluster_devAt (s : State) (k : Nat) (f : Cluster → Cluster) : (s.modCluster k f).devAt = s.devAt := rfl

@[simp] theorem State.modFen_tiles (s : State) (k : Nat) (f : Fen → Fen) : (s.modFen k f).tiles = s.tiles := rfl
@[simp] theorem State.modFen_cur (s : State) (k : Nat) (f : Fen → Fen) : (s.modFen k f).cur = s.cur := rfl
@[simp] theorem State.modFen_clusters (s : State) (k : Nat) (f : Fen → Fen) : (s.modFen k f).clusters = s.clusters := rfl
@[simp] theorem State.modFen_dev (s : State) (k : Nat) (f : Fen → Fen) : (s.modFen k f).dev = s.dev := rfl
@[simp] theorem State.modFen_host (s : State) (k : Nat) (f : Fen → Fen) : (s.modFen k f).host = s.host := rfl
@[simp] theorem State.modFen_net (s : State) (k : Nat) (f : Fen → Fen) : (s.modFen k f).net = s.net := rfl
@[simp] theorem State.modFen_rim (s : State) (k : Nat) (f : Fen → Fen) : (s.modFen k f).rim = s.rim := rfl
@[simp] theorem State.modFen_cp (s : State) (k : Nat) (f : Fen → Fen) : (s.modFen k f).cp = s.cp := rfl
@[simp] theorem State.modFen_mg (s : State) (k : Nat) (f : Fen → Fen) : (s.modFen k f).mg = s.mg := rfl
@[simp] theorem State.modFen_clk (s : State) (k : Nat) (f : Fen → Fen) : (s.modFen k f).clk = s.clk := rfl
@[simp] theorem State.modFen_sched (s : State) (k : Nat) (f : Fen → Fen) : (s.modFen k f).sched = s.sched := rfl
@[simp] theorem State.modFen_arg (s : State) (k : Nat) (f : Fen → Fen) : (s.modFen k f).arg = s.arg := rfl
@[simp] theorem State.modFen_fresh (s : State) (k : Nat) (f : Fen → Fen) : (s.modFen k f).fresh = s.fresh := rfl
@[simp] theorem State.modFen_nextId (s : State) (k : Nat) (f : Fen → Fen) : (s.modFen k f).nextId = s.nextId := rfl
@[simp] theorem State.modFen_devAt (s : State) (k : Nat) (f : Fen → Fen) : (s.modFen k f).devAt = s.devAt := rfl

@[simp] theorem State.modRim_tiles (s : State) (f : Rim → Rim) : (s.modRim f).tiles = s.tiles := rfl
@[simp] theorem State.modRim_cur (s : State) (f : Rim → Rim) : (s.modRim f).cur = s.cur := rfl
@[simp] theorem State.modRim_fens (s : State) (f : Rim → Rim) : (s.modRim f).fens = s.fens := rfl
@[simp] theorem State.modRim_clusters (s : State) (f : Rim → Rim) : (s.modRim f).clusters = s.clusters := rfl
@[simp] theorem State.modRim_dev (s : State) (f : Rim → Rim) : (s.modRim f).dev = s.dev := rfl
@[simp] theorem State.modRim_host (s : State) (f : Rim → Rim) : (s.modRim f).host = s.host := rfl
@[simp] theorem State.modRim_net (s : State) (f : Rim → Rim) : (s.modRim f).net = s.net := rfl
@[simp] theorem State.modRim_cp (s : State) (f : Rim → Rim) : (s.modRim f).cp = s.cp := rfl
@[simp] theorem State.modRim_mg (s : State) (f : Rim → Rim) : (s.modRim f).mg = s.mg := rfl
@[simp] theorem State.modRim_clk (s : State) (f : Rim → Rim) : (s.modRim f).clk = s.clk := rfl
@[simp] theorem State.modRim_sched (s : State) (f : Rim → Rim) : (s.modRim f).sched = s.sched := rfl
@[simp] theorem State.modRim_arg (s : State) (f : Rim → Rim) : (s.modRim f).arg = s.arg := rfl
@[simp] theorem State.modRim_fresh (s : State) (f : Rim → Rim) : (s.modRim f).fresh = s.fresh := rfl
@[simp] theorem State.modRim_nextId (s : State) (f : Rim → Rim) : (s.modRim f).nextId = s.nextId := rfl
@[simp] theorem State.modRim_devAt (s : State) (f : Rim → Rim) : (s.modRim f).devAt = s.devAt := rfl

@[simp] theorem State.modMg_tiles (s : State) (f : Mgmt → Mgmt) : (s.modMg f).tiles = s.tiles := rfl
@[simp] theorem State.modMg_cur (s : State) (f : Mgmt → Mgmt) : (s.modMg f).cur = s.cur := rfl
@[simp] theorem State.modMg_fens (s : State) (f : Mgmt → Mgmt) : (s.modMg f).fens = s.fens := rfl
@[simp] theorem State.modMg_clusters (s : State) (f : Mgmt → Mgmt) : (s.modMg f).clusters = s.clusters := rfl
@[simp] theorem State.modMg_dev (s : State) (f : Mgmt → Mgmt) : (s.modMg f).dev = s.dev := rfl
@[simp] theorem State.modMg_host (s : State) (f : Mgmt → Mgmt) : (s.modMg f).host = s.host := rfl
@[simp] theorem State.modMg_net (s : State) (f : Mgmt → Mgmt) : (s.modMg f).net = s.net := rfl
@[simp] theorem State.modMg_rim (s : State) (f : Mgmt → Mgmt) : (s.modMg f).rim = s.rim := rfl
@[simp] theorem State.modMg_cp (s : State) (f : Mgmt → Mgmt) : (s.modMg f).cp = s.cp := rfl
@[simp] theorem State.modMg_clk (s : State) (f : Mgmt → Mgmt) : (s.modMg f).clk = s.clk := rfl
@[simp] theorem State.modMg_sched (s : State) (f : Mgmt → Mgmt) : (s.modMg f).sched = s.sched := rfl
@[simp] theorem State.modMg_arg (s : State) (f : Mgmt → Mgmt) : (s.modMg f).arg = s.arg := rfl
@[simp] theorem State.modMg_fresh (s : State) (f : Mgmt → Mgmt) : (s.modMg f).fresh = s.fresh := rfl
@[simp] theorem State.modMg_nextId (s : State) (f : Mgmt → Mgmt) : (s.modMg f).nextId = s.nextId := rfl
@[simp] theorem State.modMg_devAt (s : State) (f : Mgmt → Mgmt) : (s.modMg f).devAt = s.devAt := rfl

@[simp] theorem State.putDev_tiles (s : State) (m : Mem) : (s.putDev m).tiles = s.tiles := rfl
@[simp] theorem State.putDev_cur (s : State) (m : Mem) : (s.putDev m).cur = s.cur := rfl
@[simp] theorem State.putDev_fens (s : State) (m : Mem) : (s.putDev m).fens = s.fens := rfl
@[simp] theorem State.putDev_clusters (s : State) (m : Mem) : (s.putDev m).clusters = s.clusters := rfl
@[simp] theorem State.putDev_host (s : State) (m : Mem) : (s.putDev m).host = s.host := rfl
@[simp] theorem State.putDev_net (s : State) (m : Mem) : (s.putDev m).net = s.net := rfl
@[simp] theorem State.putDev_rim (s : State) (m : Mem) : (s.putDev m).rim = s.rim := rfl
@[simp] theorem State.putDev_cp (s : State) (m : Mem) : (s.putDev m).cp = s.cp := rfl
@[simp] theorem State.putDev_mg (s : State) (m : Mem) : (s.putDev m).mg = s.mg := rfl
@[simp] theorem State.putDev_clk (s : State) (m : Mem) : (s.putDev m).clk = s.clk := rfl
@[simp] theorem State.putDev_sched (s : State) (m : Mem) : (s.putDev m).sched = s.sched := rfl
@[simp] theorem State.putDev_arg (s : State) (m : Mem) : (s.putDev m).arg = s.arg := rfl
@[simp] theorem State.putDev_fresh (s : State) (m : Mem) : (s.putDev m).fresh = s.fresh := rfl
@[simp] theorem State.putDev_nextId (s : State) (m : Mem) : (s.putDev m).nextId = s.nextId := rfl
@[simp] theorem State.putDev_dev (s : State) (m : Mem) : (s.putDev m).dev = m := rfl
@[simp] theorem State.tile_putDev (s : State) (j : Nat) (m : Mem) : (s.putDev m).tile j = s.tile j := rfl

/-! ### Cores of the state -/

@[simp] theorem State.tile_setTile (s : State) (k : Nat) (t : Tile) : (s.setTile k t).tile k = t := by
  simp [State.tile, State.setTile]

theorem State.tile_setTile_other (s : State) (k j : Nat) (t : Tile) (h : j ≠ k) : (s.setTile k t).tile j = s.tile j := by
  simp [State.tile, State.setTile, Tbl.get_put_other _ _ _ _ _ h]

@[simp] theorem State.tile_modTile (s : State) (k : Nat) (f : Tile → Tile) : (s.modTile k f).tile k = f (s.tile k) := by
  simp [State.modTile]

theorem State.tile_modTile_other (s : State) (k j : Nat) (f : Tile → Tile) (h : j ≠ k) :
    (s.modTile k f).tile j = s.tile j := by
  simp [State.modTile, State.tile_setTile_other _ _ _ _ h]

@[simp] theorem State.me_modMe (s : State) (f : Tile → Tile) : (s.modMe f).me = f s.me := by
  simp [State.me, State.modMe]

theorem State.tile_modMe_other (s : State) (j : Nat) (f : Tile → Tile) (h : j ≠ s.cur) : (s.modMe f).tile j = s.tile j :=
  State.tile_modTile_other s s.cur j f h

@[simp] theorem State.fen_modFen (s : State) (k : Nat) (f : Fen → Fen) : (s.modFen k f).fen k = f (s.fen k) := by
  simp [State.fen, State.modFen]

@[simp] theorem State.cluster_modCluster (s : State) (k : Nat) (f : Cluster → Cluster) :
    (s.modCluster k f).cluster k = f (s.cluster k) := by
  simp [State.cluster, State.modCluster]

@[simp] theorem State.tile_modCluster (s : State) (k j : Nat) (f : Cluster → Cluster) : (s.modCluster k f).tile j = s.tile j := rfl
@[simp] theorem State.tile_modFen (s : State) (k j : Nat) (f : Fen → Fen) : (s.modFen k f).tile j = s.tile j := rfl
@[simp] theorem State.tile_modRim (s : State) (j : Nat) (f : Rim → Rim) : (s.modRim f).tile j = s.tile j := rfl
@[simp] theorem State.tile_modMg (s : State) (j : Nat) (f : Mgmt → Mgmt) : (s.modMg f).tile j = s.tile j := rfl
@[simp] theorem State.rim_modRim (s : State) (f : Rim → Rim) : (s.modRim f).rim = f s.rim := rfl
@[simp] theorem State.mg_modMg (s : State) (f : Mgmt → Mgmt) : (s.modMg f).mg = f s.mg := rfl

/-! ### Updates of a core -/

@[simp] theorem Tile.modVol_pool (t : Tile) (f : Volatile → Volatile) : (t.modVol f).pool = t.pool := rfl
@[simp] theorem Tile.modVol_vol (t : Tile) (f : Volatile → Volatile) : (t.modVol f).vol = f t.vol := rfl
@[simp] theorem Tile.modVol_blk (t : Tile) (f : Volatile → Volatile) : (t.modVol f).blk = t.blk := rfl
@[simp] theorem Tile.modVol_ctx (t : Tile) (f : Volatile → Volatile) (c : Nat) : (t.modVol f).ctx c = t.ctx c := rfl
@[simp] theorem Tile.modVol_par (t : Tile) (f : Volatile → Volatile) : (t.modVol f).par = t.par := rfl

@[simp] theorem Tile.modLr_pool (t : Tile) (f : LaunchRegs → LaunchRegs) : (t.modLr f).pool = t.pool := rfl
@[simp] theorem Tile.modLr_vol (t : Tile) (f : LaunchRegs → LaunchRegs) : (t.modLr f).vol = t.vol := rfl
@[simp] theorem Tile.modLr_lr (t : Tile) (f : LaunchRegs → LaunchRegs) : (t.modLr f).blk.lr = f t.blk.lr := rfl
@[simp] theorem Tile.modLr_cx (t : Tile) (f : LaunchRegs → LaunchRegs) : (t.modLr f).blk.cx = t.blk.cx := rfl
@[simp] theorem Tile.modLr_hold (t : Tile) (f : LaunchRegs → LaunchRegs) : (t.modLr f).blk.hold = t.blk.hold := rfl
@[simp] theorem Tile.modLr_arr (t : Tile) (f : LaunchRegs → LaunchRegs) : (t.modLr f).blk.arr = t.blk.arr := rfl
@[simp] theorem Tile.modLr_sy (t : Tile) (f : LaunchRegs → LaunchRegs) : (t.modLr f).blk.sy = t.blk.sy := rfl
@[simp] theorem Tile.modLr_ni (t : Tile) (f : LaunchRegs → LaunchRegs) : (t.modLr f).blk.ni = t.blk.ni := rfl
@[simp] theorem Tile.modLr_en (t : Tile) (f : LaunchRegs → LaunchRegs) : (t.modLr f).blk.en = t.blk.en := rfl
@[simp] theorem Tile.modLr_ct (t : Tile) (f : LaunchRegs → LaunchRegs) : (t.modLr f).blk.ct = t.blk.ct := rfl
@[simp] theorem Tile.modLr_ctx (t : Tile) (f : LaunchRegs → LaunchRegs) (c : Nat) : (t.modLr f).ctx c = t.ctx c := rfl
@[simp] theorem Tile.modLr_par (t : Tile) (f : LaunchRegs → LaunchRegs) : (t.modLr f).par = t.par := rfl
@[simp] theorem Tile.modLr_free (t : Tile) (f : LaunchRegs → LaunchRegs) : (t.modLr f).blk.free = t.blk.free := rfl

@[simp] theorem Tile.modArr_pool (t : Tile) (f : ArrayPart → ArrayPart) : (t.modArr f).pool = t.pool := rfl
@[simp] theorem Tile.modArr_vol (t : Tile) (f : ArrayPart → ArrayPart) : (t.modArr f).vol = t.vol := rfl
@[simp] theorem Tile.modArr_lr (t : Tile) (f : ArrayPart → ArrayPart) : (t.modArr f).blk.lr = t.blk.lr := rfl
@[simp] theorem Tile.modArr_cx (t : Tile) (f : ArrayPart → ArrayPart) : (t.modArr f).blk.cx = t.blk.cx := rfl
@[simp] theorem Tile.modArr_hold (t : Tile) (f : ArrayPart → ArrayPart) : (t.modArr f).blk.hold = t.blk.hold := rfl
@[simp] theorem Tile.modArr_arr (t : Tile) (f : ArrayPart → ArrayPart) : (t.modArr f).blk.arr = f t.blk.arr := rfl
@[simp] theorem Tile.modArr_sy (t : Tile) (f : ArrayPart → ArrayPart) : (t.modArr f).blk.sy = t.blk.sy := rfl
@[simp] theorem Tile.modArr_ni (t : Tile) (f : ArrayPart → ArrayPart) : (t.modArr f).blk.ni = t.blk.ni := rfl
@[simp] theorem Tile.modArr_en (t : Tile) (f : ArrayPart → ArrayPart) : (t.modArr f).blk.en = t.blk.en := rfl
@[simp] theorem Tile.modArr_ct (t : Tile) (f : ArrayPart → ArrayPart) : (t.modArr f).blk.ct = t.blk.ct := rfl
@[simp] theorem Tile.modArr_ctx (t : Tile) (f : ArrayPart → ArrayPart) (c : Nat) : (t.modArr f).ctx c = t.ctx c := rfl
@[simp] theorem Tile.modArr_par (t : Tile) (f : ArrayPart → ArrayPart) : (t.modArr f).par = t.par := rfl
@[simp] theorem Tile.modArr_free (t : Tile) (f : ArrayPart → ArrayPart) : (t.modArr f).blk.free = t.blk.free := rfl

@[simp] theorem Tile.modSy_pool (t : Tile) (f : SyncPart → SyncPart) : (t.modSy f).pool = t.pool := rfl
@[simp] theorem Tile.modSy_vol (t : Tile) (f : SyncPart → SyncPart) : (t.modSy f).vol = t.vol := rfl
@[simp] theorem Tile.modSy_lr (t : Tile) (f : SyncPart → SyncPart) : (t.modSy f).blk.lr = t.blk.lr := rfl
@[simp] theorem Tile.modSy_cx (t : Tile) (f : SyncPart → SyncPart) : (t.modSy f).blk.cx = t.blk.cx := rfl
@[simp] theorem Tile.modSy_hold (t : Tile) (f : SyncPart → SyncPart) : (t.modSy f).blk.hold = t.blk.hold := rfl
@[simp] theorem Tile.modSy_arr (t : Tile) (f : SyncPart → SyncPart) : (t.modSy f).blk.arr = t.blk.arr := rfl
@[simp] theorem Tile.modSy_sy (t : Tile) (f : SyncPart → SyncPart) : (t.modSy f).blk.sy = f t.blk.sy := rfl
@[simp] theorem Tile.modSy_ni (t : Tile) (f : SyncPart → SyncPart) : (t.modSy f).blk.ni = t.blk.ni := rfl
@[simp] theorem Tile.modSy_en (t : Tile) (f : SyncPart → SyncPart) : (t.modSy f).blk.en = t.blk.en := rfl
@[simp] theorem Tile.modSy_ct (t : Tile) (f : SyncPart → SyncPart) : (t.modSy f).blk.ct = t.blk.ct := rfl
@[simp] theorem Tile.modSy_ctx (t : Tile) (f : SyncPart → SyncPart) (c : Nat) : (t.modSy f).ctx c = t.ctx c := rfl
@[simp] theorem Tile.modSy_par (t : Tile) (f : SyncPart → SyncPart) : (t.modSy f).par = t.par := rfl
@[simp] theorem Tile.modSy_free (t : Tile) (f : SyncPart → SyncPart) : (t.modSy f).blk.free = t.blk.free := rfl

@[simp] theorem Tile.modNi_pool (t : Tile) (f : NiPart → NiPart) : (t.modNi f).pool = t.pool := rfl
@[simp] theorem Tile.modNi_vol (t : Tile) (f : NiPart → NiPart) : (t.modNi f).vol = t.vol := rfl
@[simp] theorem Tile.modNi_lr (t : Tile) (f : NiPart → NiPart) : (t.modNi f).blk.lr = t.blk.lr := rfl
@[simp] theorem Tile.modNi_cx (t : Tile) (f : NiPart → NiPart) : (t.modNi f).blk.cx = t.blk.cx := rfl
@[simp] theorem Tile.modNi_hold (t : Tile) (f : NiPart → NiPart) : (t.modNi f).blk.hold = t.blk.hold := rfl
@[simp] theorem Tile.modNi_arr (t : Tile) (f : NiPart → NiPart) : (t.modNi f).blk.arr = t.blk.arr := rfl
@[simp] theorem Tile.modNi_sy (t : Tile) (f : NiPart → NiPart) : (t.modNi f).blk.sy = t.blk.sy := rfl
@[simp] theorem Tile.modNi_ni (t : Tile) (f : NiPart → NiPart) : (t.modNi f).blk.ni = f t.blk.ni := rfl
@[simp] theorem Tile.modNi_en (t : Tile) (f : NiPart → NiPart) : (t.modNi f).blk.en = t.blk.en := rfl
@[simp] theorem Tile.modNi_ct (t : Tile) (f : NiPart → NiPart) : (t.modNi f).blk.ct = t.blk.ct := rfl
@[simp] theorem Tile.modNi_ctx (t : Tile) (f : NiPart → NiPart) (c : Nat) : (t.modNi f).ctx c = t.ctx c := rfl
@[simp] theorem Tile.modNi_par (t : Tile) (f : NiPart → NiPart) : (t.modNi f).par = t.par := rfl
@[simp] theorem Tile.modNi_free (t : Tile) (f : NiPart → NiPart) : (t.modNi f).blk.free = t.blk.free := rfl

@[simp] theorem Tile.modEn_pool (t : Tile) (f : EnginePart → EnginePart) : (t.modEn f).pool = t.pool := rfl
@[simp] theorem Tile.modEn_vol (t : Tile) (f : EnginePart → EnginePart) : (t.modEn f).vol = t.vol := rfl
@[simp] theorem Tile.modEn_lr (t : Tile) (f : EnginePart → EnginePart) : (t.modEn f).blk.lr = t.blk.lr := rfl
@[simp] theorem Tile.modEn_cx (t : Tile) (f : EnginePart → EnginePart) : (t.modEn f).blk.cx = t.blk.cx := rfl
@[simp] theorem Tile.modEn_hold (t : Tile) (f : EnginePart → EnginePart) : (t.modEn f).blk.hold = t.blk.hold := rfl
@[simp] theorem Tile.modEn_arr (t : Tile) (f : EnginePart → EnginePart) : (t.modEn f).blk.arr = t.blk.arr := rfl
@[simp] theorem Tile.modEn_sy (t : Tile) (f : EnginePart → EnginePart) : (t.modEn f).blk.sy = t.blk.sy := rfl
@[simp] theorem Tile.modEn_ni (t : Tile) (f : EnginePart → EnginePart) : (t.modEn f).blk.ni = t.blk.ni := rfl
@[simp] theorem Tile.modEn_en (t : Tile) (f : EnginePart → EnginePart) : (t.modEn f).blk.en = f t.blk.en := rfl
@[simp] theorem Tile.modEn_ct (t : Tile) (f : EnginePart → EnginePart) : (t.modEn f).blk.ct = t.blk.ct := rfl
@[simp] theorem Tile.modEn_ctx (t : Tile) (f : EnginePart → EnginePart) (c : Nat) : (t.modEn f).ctx c = t.ctx c := rfl
@[simp] theorem Tile.modEn_par (t : Tile) (f : EnginePart → EnginePart) : (t.modEn f).par = t.par := rfl
@[simp] theorem Tile.modEn_free (t : Tile) (f : EnginePart → EnginePart) : (t.modEn f).blk.free = t.blk.free := rfl

@[simp] theorem Tile.modCt_pool (t : Tile) (f : CountPart → CountPart) : (t.modCt f).pool = t.pool := rfl
@[simp] theorem Tile.modCt_vol (t : Tile) (f : CountPart → CountPart) : (t.modCt f).vol = t.vol := rfl
@[simp] theorem Tile.modCt_lr (t : Tile) (f : CountPart → CountPart) : (t.modCt f).blk.lr = t.blk.lr := rfl
@[simp] theorem Tile.modCt_cx (t : Tile) (f : CountPart → CountPart) : (t.modCt f).blk.cx = t.blk.cx := rfl
@[simp] theorem Tile.modCt_hold (t : Tile) (f : CountPart → CountPart) : (t.modCt f).blk.hold = t.blk.hold := rfl
@[simp] theorem Tile.modCt_arr (t : Tile) (f : CountPart → CountPart) : (t.modCt f).blk.arr = t.blk.arr := rfl
@[simp] theorem Tile.modCt_sy (t : Tile) (f : CountPart → CountPart) : (t.modCt f).blk.sy = t.blk.sy := rfl
@[simp] theorem Tile.modCt_ni (t : Tile) (f : CountPart → CountPart) : (t.modCt f).blk.ni = t.blk.ni := rfl
@[simp] theorem Tile.modCt_en (t : Tile) (f : CountPart → CountPart) : (t.modCt f).blk.en = t.blk.en := rfl
@[simp] theorem Tile.modCt_ct (t : Tile) (f : CountPart → CountPart) : (t.modCt f).blk.ct = f t.blk.ct := rfl
@[simp] theorem Tile.modCt_ctx (t : Tile) (f : CountPart → CountPart) (c : Nat) : (t.modCt f).ctx c = t.ctx c := rfl
@[simp] theorem Tile.modCt_par (t : Tile) (f : CountPart → CountPart) : (t.modCt f).par = t.par := rfl
@[simp] theorem Tile.modCt_free (t : Tile) (f : CountPart → CountPart) : (t.modCt f).blk.free = t.blk.free := rfl

@[simp] theorem Tile.setCtx_lr (t : Tile) (c : Nat) (x : Ctx) : (t.setCtx c x).blk.lr = t.blk.lr := rfl
@[simp] theorem Tile.modCtx_lr (t : Tile) (c : Nat) (f : Ctx → Ctx) : (t.modCtx c f).blk.lr = t.blk.lr := rfl
@[simp] theorem Tile.setCtx_hold (t : Tile) (c : Nat) (x : Ctx) : (t.setCtx c x).blk.hold = t.blk.hold := rfl
@[simp] theorem Tile.modCtx_hold (t : Tile) (c : Nat) (f : Ctx → Ctx) : (t.modCtx c f).blk.hold = t.blk.hold := rfl
@[simp] theorem Tile.setCtx_arr (t : Tile) (c : Nat) (x : Ctx) : (t.setCtx c x).blk.arr = t.blk.arr := rfl
@[simp] theorem Tile.modCtx_arr (t : Tile) (c : Nat) (f : Ctx → Ctx) : (t.modCtx c f).blk.arr = t.blk.arr := rfl
@[simp] theorem Tile.setCtx_sy (t : Tile) (c : Nat) (x : Ctx) : (t.setCtx c x).blk.sy = t.blk.sy := rfl
@[simp] theorem Tile.modCtx_sy (t : Tile) (c : Nat) (f : Ctx → Ctx) : (t.modCtx c f).blk.sy = t.blk.sy := rfl
@[simp] theorem Tile.setCtx_ni (t : Tile) (c : Nat) (x : Ctx) : (t.setCtx c x).blk.ni = t.blk.ni := rfl
@[simp] theorem Tile.modCtx_ni (t : Tile) (c : Nat) (f : Ctx → Ctx) : (t.modCtx c f).blk.ni = t.blk.ni := rfl
@[simp] theorem Tile.setCtx_en (t : Tile) (c : Nat) (x : Ctx) : (t.setCtx c x).blk.en = t.blk.en := rfl
@[simp] theorem Tile.modCtx_en (t : Tile) (c : Nat) (f : Ctx → Ctx) : (t.modCtx c f).blk.en = t.blk.en := rfl
@[simp] theorem Tile.setCtx_ct (t : Tile) (c : Nat) (x : Ctx) : (t.setCtx c x).blk.ct = t.blk.ct := rfl
@[simp] theorem Tile.modCtx_ct (t : Tile) (c : Nat) (f : Ctx → Ctx) : (t.modCtx c f).blk.ct = t.blk.ct := rfl
@[simp] theorem Tile.setCtx_pool (t : Tile) (c : Nat) (x : Ctx) : (t.setCtx c x).pool = t.pool := rfl
@[simp] theorem Tile.modCtx_pool (t : Tile) (c : Nat) (f : Ctx → Ctx) : (t.modCtx c f).pool = t.pool := rfl
@[simp] theorem Tile.setCtx_vol (t : Tile) (c : Nat) (x : Ctx) : (t.setCtx c x).vol = t.vol := rfl
@[simp] theorem Tile.setCtx_par (t : Tile) (c : Nat) (x : Ctx) : (t.setCtx c x).par = t.par := rfl
@[simp] theorem Tile.setCtx_free (t : Tile) (c : Nat) (x : Ctx) : (t.setCtx c x).blk.free = t.blk.free := rfl
@[simp] theorem Tile.modCtx_vol (t : Tile) (c : Nat) (f : Ctx → Ctx) : (t.modCtx c f).vol = t.vol := rfl
@[simp] theorem Tile.modCtx_par (t : Tile) (c : Nat) (f : Ctx → Ctx) : (t.modCtx c f).par = t.par := rfl
@[simp] theorem Tile.modCtx_free (t : Tile) (c : Nat) (f : Ctx → Ctx) : (t.modCtx c f).blk.free = t.blk.free := rfl

@[simp] theorem Tile.ctx_setCtx (t : Tile) (c : Nat) (x : Ctx) : (t.setCtx c x).ctx c = x := by
  simp [Tile.ctx, Tile.setCtx, Block.ctx, Block.setCtx, ctxIx, vector_get_set]

theorem Tile.ctx_setCtx_other (t : Tile) (c d : Nat) (x : Ctx) (h : d % 8 ≠ c % 8) : (t.setCtx c x).ctx d = t.ctx d := by
  simp [Tile.ctx, Tile.setCtx, Block.ctx, Block.setCtx, ctxIx, vector_get_set, Ne.symm h]

@[simp] theorem Tile.ctx_modCtx (t : Tile) (c : Nat) (f : Ctx → Ctx) : (t.modCtx c f).ctx c = f (t.ctx c) := by
  simp [Tile.modCtx]

theorem Tile.ctx_modCtx_other (t : Tile) (c d : Nat) (f : Ctx → Ctx) (h : d % 8 ≠ c % 8) :
    (t.modCtx c f).ctx d = t.ctx d := by
  simp [Tile.modCtx, Tile.ctx_setCtx_other _ _ _ _ h]

@[simp] theorem State.cx_modCx (s : State) (f : Ctx → Ctx) : (s.modCx f).cx = f s.cx := by
  simp [State.cx, State.modCx]

@[simp] theorem State.me_modCx_hold (s : State) (f : Ctx → Ctx) : (s.modCx f).me.blk.hold = s.me.blk.hold := by
  simp [State.modCx]

/-! ### Registers of a context -/

@[simp] theorem Ctx.wg_pc (c : Ctx) (r : RegNo) (v : Word) : (c.wg r v).pc = c.pc := by simp only [Ctx.wg]; split <;> rfl
@[simp] theorem Ctx.wg_p (c : Ctx) (r : RegNo) (v : Word) : (c.wg r v).p = c.p := by simp only [Ctx.wg]; split <;> rfl
@[simp] theorem Ctx.wg_s (c : Ctx) (r : RegNo) (v : Word) : (c.wg r v).s = c.s := by simp only [Ctx.wg]; split <;> rfl
@[simp] theorem Ctx.wg_run (c : Ctx) (r : RegNo) (v : Word) : (c.wg r v).run = c.run := by simp only [Ctx.wg]; split <;> rfl
@[simp] theorem Ctx.wg_diverted (c : Ctx) (r : RegNo) (v : Word) : (c.wg r v).diverted = c.diverted := by simp only [Ctx.wg]; split <;> rfl
@[simp] theorem Ctx.wg_outs (c : Ctx) (r : RegNo) (v : Word) : (c.wg r v).outs = c.outs := by simp only [Ctx.wg]; split <;> rfl
@[simp] theorem Ctx.wg_relNext (c : Ctx) (r : RegNo) (v : Word) : (c.wg r v).relNext = c.relNext := by simp only [Ctx.wg]; split <;> rfl
@[simp] theorem Ctx.wg_tth (c : Ctx) (r : RegNo) (v : Word) : (c.wg r v).tth = c.tth := by simp only [Ctx.wg]; split <;> rfl
@[simp] theorem Ctx.wg_ups (c : Ctx) (r : RegNo) (v : Word) : (c.wg r v).ups = c.ups := by simp only [Ctx.wg]; split <;> rfl
@[simp] theorem Ctx.wg_trc (c : Ctx) (r : RegNo) (v : Word) : (c.wg r v).trc = c.trc := by simp only [Ctx.wg]; split <;> rfl
@[simp] theorem Ctx.wg_tra (c : Ctx) (r : RegNo) (v : Word) : (c.wg r v).tra = c.tra := by simp only [Ctx.wg]; split <;> rfl
@[simp] theorem Ctx.wg_epc (c : Ctx) (r : RegNo) (v : Word) : (c.wg r v).epc = c.epc := by simp only [Ctx.wg]; split <;> rfl
@[simp] theorem Ctx.wg_supervisor (c : Ctx) (r : RegNo) (v : Word) : (c.wg r v).supervisor = c.supervisor := by simp only [Ctx.wg]; split <;> rfl
@[simp] theorem Ctx.wg_sst (c : Ctx) (r : RegNo) (v : Word) : (c.wg r v).sst = c.sst := by simp only [Ctx.wg]; split <;> rfl
@[simp] theorem Ctx.wg_sepc (c : Ctx) (r : RegNo) (v : Word) : (c.wg r v).sepc = c.sepc := by simp only [Ctx.wg]; split <;> rfl
@[simp] theorem Ctx.wg_sec (c : Ctx) (r : RegNo) (v : Word) : (c.wg r v).sec = c.sec := by simp only [Ctx.wg]; split <;> rfl
@[simp] theorem Ctx.wg_svec (c : Ctx) (r : RegNo) (v : Word) : (c.wg r v).svec = c.svec := by simp only [Ctx.wg]; split <;> rfl
@[simp] theorem Ctx.wg_asn (c : Ctx) (r : RegNo) (v : Word) : (c.wg r v).asn = c.asn := by simp only [Ctx.wg]; split <;> rfl
@[simp] theorem Ctx.wg_psd (c : Ctx) (r : RegNo) (v : Word) : (c.wg r v).psd = c.psd := by simp only [Ctx.wg]; split <;> rfl
@[simp] theorem Ctx.wg_hbc (c : Ctx) (r : RegNo) (v : Word) : (c.wg r v).hbc = c.hbc := by simp only [Ctx.wg]; split <;> rfl
@[simp] theorem Ctx.wg_mln (c : Ctx) (r : RegNo) (v : Word) : (c.wg r v).mln = c.mln := by simp only [Ctx.wg]; split <;> rfl
@[simp] theorem Ctx.wg_marm (c : Ctx) (r : RegNo) (v : Word) : (c.wg r v).marm = c.marm := by simp only [Ctx.wg]; split <;> rfl
@[simp] theorem Ctx.wg_mchg (c : Ctx) (r : RegNo) (v : Word) : (c.wg r v).mchg = c.mchg := by simp only [Ctx.wg]; split <;> rfl
@[simp] theorem Ctx.wg_tsn (c : Ctx) (r : RegNo) (v : Word) : (c.wg r v).tsn = c.tsn := by simp only [Ctx.wg]; split <;> rfl
@[simp] theorem Ctx.wg_apnd (c : Ctx) (r : RegNo) (v : Word) : (c.wg r v).apnd = c.apnd := by simp only [Ctx.wg]; split <;> rfl
@[simp] theorem Ctx.wg_ocnt (c : Ctx) (r : RegNo) (v : Word) : (c.wg r v).ocnt = c.ocnt := by simp only [Ctx.wg]; split <;> rfl
@[simp] theorem Ctx.wg_upGone (c : Ctx) (r : RegNo) (v : Word) : (c.wg r v).upGone = c.upGone := by simp only [Ctx.wg]; split <;> rfl
@[simp] theorem Ctx.wp_pc (c : Ctx) (r : BitVec 3) (v : BitVec 32) : (c.wp r v).pc = c.pc := by simp only [Ctx.wp]; split <;> rfl
@[simp] theorem Ctx.wp_g (c : Ctx) (r : BitVec 3) (v : BitVec 32) : (c.wp r v).g = c.g := by simp only [Ctx.wp]; split <;> rfl
@[simp] theorem Ctx.wp_s (c : Ctx) (r : BitVec 3) (v : BitVec 32) : (c.wp r v).s = c.s := by simp only [Ctx.wp]; split <;> rfl
@[simp] theorem Ctx.wp_run (c : Ctx) (r : BitVec 3) (v : BitVec 32) : (c.wp r v).run = c.run := by simp only [Ctx.wp]; split <;> rfl
@[simp] theorem Ctx.wp_diverted (c : Ctx) (r : BitVec 3) (v : BitVec 32) : (c.wp r v).diverted = c.diverted := by simp only [Ctx.wp]; split <;> rfl
@[simp] theorem Ctx.wp_outs (c : Ctx) (r : BitVec 3) (v : BitVec 32) : (c.wp r v).outs = c.outs := by simp only [Ctx.wp]; split <;> rfl
@[simp] theorem Ctx.wp_relNext (c : Ctx) (r : BitVec 3) (v : BitVec 32) : (c.wp r v).relNext = c.relNext := by simp only [Ctx.wp]; split <;> rfl
@[simp] theorem Ctx.wp_tth (c : Ctx) (r : BitVec 3) (v : BitVec 32) : (c.wp r v).tth = c.tth := by simp only [Ctx.wp]; split <;> rfl
@[simp] theorem Ctx.wp_ups (c : Ctx) (r : BitVec 3) (v : BitVec 32) : (c.wp r v).ups = c.ups := by simp only [Ctx.wp]; split <;> rfl
@[simp] theorem Ctx.wp_trc (c : Ctx) (r : BitVec 3) (v : BitVec 32) : (c.wp r v).trc = c.trc := by simp only [Ctx.wp]; split <;> rfl
@[simp] theorem Ctx.wp_tra (c : Ctx) (r : BitVec 3) (v : BitVec 32) : (c.wp r v).tra = c.tra := by simp only [Ctx.wp]; split <;> rfl
@[simp] theorem Ctx.wp_epc (c : Ctx) (r : BitVec 3) (v : BitVec 32) : (c.wp r v).epc = c.epc := by simp only [Ctx.wp]; split <;> rfl
@[simp] theorem Ctx.wp_supervisor (c : Ctx) (r : BitVec 3) (v : BitVec 32) : (c.wp r v).supervisor = c.supervisor := by simp only [Ctx.wp]; split <;> rfl
@[simp] theorem Ctx.wp_sst (c : Ctx) (r : BitVec 3) (v : BitVec 32) : (c.wp r v).sst = c.sst := by simp only [Ctx.wp]; split <;> rfl
@[simp] theorem Ctx.wp_sepc (c : Ctx) (r : BitVec 3) (v : BitVec 32) : (c.wp r v).sepc = c.sepc := by simp only [Ctx.wp]; split <;> rfl
@[simp] theorem Ctx.wp_sec (c : Ctx) (r : BitVec 3) (v : BitVec 32) : (c.wp r v).sec = c.sec := by simp only [Ctx.wp]; split <;> rfl
@[simp] theorem Ctx.wp_svec (c : Ctx) (r : BitVec 3) (v : BitVec 32) : (c.wp r v).svec = c.svec := by simp only [Ctx.wp]; split <;> rfl
@[simp] theorem Ctx.wp_asn (c : Ctx) (r : BitVec 3) (v : BitVec 32) : (c.wp r v).asn = c.asn := by simp only [Ctx.wp]; split <;> rfl
@[simp] theorem Ctx.wp_psd (c : Ctx) (r : BitVec 3) (v : BitVec 32) : (c.wp r v).psd = c.psd := by simp only [Ctx.wp]; split <;> rfl
@[simp] theorem Ctx.wp_hbc (c : Ctx) (r : BitVec 3) (v : BitVec 32) : (c.wp r v).hbc = c.hbc := by simp only [Ctx.wp]; split <;> rfl
@[simp] theorem Ctx.wp_mln (c : Ctx) (r : BitVec 3) (v : BitVec 32) : (c.wp r v).mln = c.mln := by simp only [Ctx.wp]; split <;> rfl
@[simp] theorem Ctx.wp_marm (c : Ctx) (r : BitVec 3) (v : BitVec 32) : (c.wp r v).marm = c.marm := by simp only [Ctx.wp]; split <;> rfl
@[simp] theorem Ctx.wp_mchg (c : Ctx) (r : BitVec 3) (v : BitVec 32) : (c.wp r v).mchg = c.mchg := by simp only [Ctx.wp]; split <;> rfl
@[simp] theorem Ctx.wp_tsn (c : Ctx) (r : BitVec 3) (v : BitVec 32) : (c.wp r v).tsn = c.tsn := by simp only [Ctx.wp]; split <;> rfl
@[simp] theorem Ctx.wp_apnd (c : Ctx) (r : BitVec 3) (v : BitVec 32) : (c.wp r v).apnd = c.apnd := by simp only [Ctx.wp]; split <;> rfl
@[simp] theorem Ctx.wp_ocnt (c : Ctx) (r : BitVec 3) (v : BitVec 32) : (c.wp r v).ocnt = c.ocnt := by simp only [Ctx.wp]; split <;> rfl
@[simp] theorem Ctx.wp_upGone (c : Ctx) (r : BitVec 3) (v : BitVec 32) : (c.wp r v).upGone = c.upGone := by simp only [Ctx.wp]; split <;> rfl
@[simp] theorem Ctx.ws_pc (c : Ctx) (r : BitVec 3) (v : BitVec 128) : (c.ws r v).pc = c.pc := rfl
@[simp] theorem Ctx.ws_g (c : Ctx) (r : BitVec 3) (v : BitVec 128) : (c.ws r v).g = c.g := rfl
@[simp] theorem Ctx.ws_p (c : Ctx) (r : BitVec 3) (v : BitVec 128) : (c.ws r v).p = c.p := rfl
@[simp] theorem Ctx.ws_run (c : Ctx) (r : BitVec 3) (v : BitVec 128) : (c.ws r v).run = c.run := rfl
@[simp] theorem Ctx.ws_diverted (c : Ctx) (r : BitVec 3) (v : BitVec 128) : (c.ws r v).diverted = c.diverted := rfl
@[simp] theorem Ctx.ws_outs (c : Ctx) (r : BitVec 3) (v : BitVec 128) : (c.ws r v).outs = c.outs := rfl
@[simp] theorem Ctx.ws_relNext (c : Ctx) (r : BitVec 3) (v : BitVec 128) : (c.ws r v).relNext = c.relNext := rfl
@[simp] theorem Ctx.ws_tth (c : Ctx) (r : BitVec 3) (v : BitVec 128) : (c.ws r v).tth = c.tth := rfl
@[simp] theorem Ctx.ws_ups (c : Ctx) (r : BitVec 3) (v : BitVec 128) : (c.ws r v).ups = c.ups := rfl
@[simp] theorem Ctx.ws_trc (c : Ctx) (r : BitVec 3) (v : BitVec 128) : (c.ws r v).trc = c.trc := rfl
@[simp] theorem Ctx.ws_tra (c : Ctx) (r : BitVec 3) (v : BitVec 128) : (c.ws r v).tra = c.tra := rfl
@[simp] theorem Ctx.ws_epc (c : Ctx) (r : BitVec 3) (v : BitVec 128) : (c.ws r v).epc = c.epc := rfl
@[simp] theorem Ctx.ws_supervisor (c : Ctx) (r : BitVec 3) (v : BitVec 128) : (c.ws r v).supervisor = c.supervisor := rfl
@[simp] theorem Ctx.ws_sst (c : Ctx) (r : BitVec 3) (v : BitVec 128) : (c.ws r v).sst = c.sst := rfl
@[simp] theorem Ctx.ws_sepc (c : Ctx) (r : BitVec 3) (v : BitVec 128) : (c.ws r v).sepc = c.sepc := rfl
@[simp] theorem Ctx.ws_sec (c : Ctx) (r : BitVec 3) (v : BitVec 128) : (c.ws r v).sec = c.sec := rfl
@[simp] theorem Ctx.ws_svec (c : Ctx) (r : BitVec 3) (v : BitVec 128) : (c.ws r v).svec = c.svec := rfl
@[simp] theorem Ctx.ws_asn (c : Ctx) (r : BitVec 3) (v : BitVec 128) : (c.ws r v).asn = c.asn := rfl
@[simp] theorem Ctx.ws_psd (c : Ctx) (r : BitVec 3) (v : BitVec 128) : (c.ws r v).psd = c.psd := rfl
@[simp] theorem Ctx.ws_hbc (c : Ctx) (r : BitVec 3) (v : BitVec 128) : (c.ws r v).hbc = c.hbc := rfl
@[simp] theorem Ctx.ws_mln (c : Ctx) (r : BitVec 3) (v : BitVec 128) : (c.ws r v).mln = c.mln := rfl
@[simp] theorem Ctx.ws_marm (c : Ctx) (r : BitVec 3) (v : BitVec 128) : (c.ws r v).marm = c.marm := rfl
@[simp] theorem Ctx.ws_mchg (c : Ctx) (r : BitVec 3) (v : BitVec 128) : (c.ws r v).mchg = c.mchg := rfl
@[simp] theorem Ctx.ws_tsn (c : Ctx) (r : BitVec 3) (v : BitVec 128) : (c.ws r v).tsn = c.tsn := rfl
@[simp] theorem Ctx.ws_apnd (c : Ctx) (r : BitVec 3) (v : BitVec 128) : (c.ws r v).apnd = c.apnd := rfl
@[simp] theorem Ctx.ws_ocnt (c : Ctx) (r : BitVec 3) (v : BitVec 128) : (c.ws r v).ocnt = c.ocnt := rfl
@[simp] theorem Ctx.ws_upGone (c : Ctx) (r : BitVec 3) (v : BitVec 128) : (c.ws r v).upGone = c.upGone := rfl

/-- R139: a general register read after a write; g0 keeps zero. -/
theorem Ctx.rg_wg (c : Ctx) (r q : RegNo) (v : Word) :
    (c.wg r v).rg q = if q = r ∧ r ≠ 0 then v else c.rg q := by
  by_cases hr : r = 0
  · rw [if_neg (fun h => h.2 hr), Ctx.wg, if_pos hr]
  · unfold Ctx.wg Ctx.rg
    rw [if_neg hr]
    by_cases h : q = r
    · subst h; rw [if_neg hr, if_pos ⟨rfl, hr⟩]; simp [vector_get_set]
    · have hn : ¬ r.toNat = q.toNat := fun e => h (BitVec.eq_of_toNat_eq e.symm)
      rw [if_neg (fun k : q = r ∧ r ≠ 0 => h k.1)]
      simp [vector_get_set, hn]

/-- R139: a predicate register read after a write; p0 keeps all ones. -/
theorem Ctx.rp_wp (c : Ctx) (r q : BitVec 3) (v : BitVec 32) :
    (c.wp r v).rp q = if q = r ∧ r ≠ 0 then v else c.rp q := by
  by_cases hr : r = 0
  · rw [if_neg (fun h => h.2 hr), Ctx.wp, if_pos hr]
  · unfold Ctx.wp Ctx.rp
    rw [if_neg hr]
    by_cases h : q = r
    · subst h; rw [if_neg hr, if_pos ⟨rfl, hr⟩]; simp [vector_get_set]
    · have hn : ¬ r.toNat = q.toNat := fun e => h (BitVec.eq_of_toNat_eq e.symm)
      rw [if_neg (fun k : q = r ∧ r ≠ 0 => h k.1)]
      simp [vector_get_set, hn]

/-- A stream register read after a write. -/
theorem Ctx.rs_ws (c : Ctx) (r q : BitVec 3) (v : BitVec 128) : (c.ws r v).rs q = if q = r then v else c.rs q := by
  unfold Ctx.ws Ctx.rs
  by_cases h : q = r
  · subst h; simp [vector_get_set]
  · have hn : ¬ r.toNat = q.toNat := fun e => h (BitVec.eq_of_toNat_eq e.symm)
    simp [vector_get_set, h, hn]

/-- R139: g0 reads zero and p0 all ones, whatever their storage holds. -/
@[simp] theorem Ctx.rg_zero (c : Ctx) : c.rg 0 = 0 := rfl
@[simp] theorem Ctx.rp_zero (c : Ctx) : c.rp 0 = 0xFFFFFFFF := rfl

end Sys2Proof.Machine
end

