-- ==== Sys2Proof/Laws/Memory.lean ====
section
/-! SUPPORT. The laws of memory: reading after a write, and that every memory operation keeps the canonical form. -/

namespace Sys2Proof.Machine

/-! ### Reading -/

theorem Mem.read_append (m n : Mem) (a : Nat) (h : ∀ e ∈ m, e.1 ≠ a) : Mem.read (m ++ n) a = Mem.read n a := by
  induction m with
  | nil => rfl
  | cons e r ih =>
    obtain ⟨k, b⟩ := e
    have hk : k ≠ a := h (k, b) List.mem_cons_self
    simp [Mem.read, hk, ih (fun e he => h e (List.mem_cons_of_mem _ he))]

theorem Mem.read_absent (m : Mem) (a : Nat) (h : ∀ e ∈ m, e.1 ≠ a) : Mem.read m a = 0 := by
  induction m with
  | nil => rfl
  | cons e r ih =>
    obtain ⟨k, b⟩ := e
    have hk : k ≠ a := h (k, b) List.mem_cons_self
    simp [Mem.read, hk, ih (fun e he => h e (List.mem_cons_of_mem _ he))]

/-- Reading a part of a memory chosen by address: what the whole reads, at an address that is chosen. -/
theorem Mem.read_filter (m : Mem) (p : Nat → Bool) (a : Nat) (h : p a = true) :
    Mem.read (m.filter (fun e => p e.1)) a = Mem.read m a := by
  induction m with
  | nil => rfl
  | cons e r ih =>
    obtain ⟨k, b⟩ := e
    by_cases hp : p k
    · rw [List.filter_cons_of_pos (by simpa using hp)]
      by_cases hk : k = a <;> simp [Mem.read, hk, ih]
    · have hk : k ≠ a := fun e => hp (e ▸ h)
      simp [hp, Mem.read, hk, ih]

/-- A memory that lists a later or no address in front of another still reads the other's byte. -/
theorem Mem.read_append_left (m n : Mem) (a : Nat) (h : ∀ e ∈ n, e.1 ≠ a) : Mem.read (m ++ n) a = Mem.read m a := by
  induction m with
  | nil => exact Mem.read_absent n a h
  | cons e r ih =>
    obtain ⟨k, b⟩ := e
    by_cases hk : k = a <;> simp [Mem.read, hk, ih]

theorem Mem.cells_range (a : Nat) (bs : List Byte) : ∀ e ∈ Mem.cells a bs, a ≤ e.1 ∧ e.1 < a + bs.length := by
  induction bs generalizing a with
  | nil => simp [Mem.cells]
  | cons b r ih =>
    intro e he
    have step : ∀ e ∈ Mem.cells (a + 1) r, a ≤ e.1 ∧ e.1 < a + (b :: r).length := fun e he => by
      have := ih (a + 1) e he
      simp only [List.length_cons]; omega
    by_cases hb : b = 0
    · exact step e (by simpa [Mem.cells, hb] using he)
    · simp only [Mem.cells, hb, if_false, List.mem_cons] at he
      rcases he with he | he
      · subst he; simp
      · exact step e he

theorem Mem.read_cells (a k : Nat) (bs : List Byte) : Mem.read (Mem.cells a bs) (a + k) = bs.getD k 0 := by
  induction bs generalizing a k with
  | nil => simp [Mem.cells, Mem.read]
  | cons b r ih =>
    cases k with
    | zero =>
      by_cases hb : b = 0
      · have h : ∀ e ∈ Mem.cells (a + 1) r, e.1 ≠ a := fun e he => by
          have := Mem.cells_range (a + 1) r e he; omega
        simp [Mem.cells, hb, Mem.read_absent _ a h]
      · rw [Mem.cells, if_neg hb]; simp [Mem.read]
    | succ k =>
      have h : a + (k + 1) = a + 1 + k := by omega
      rw [Mem.cells, h]
      by_cases hb : b = 0
      · rw [if_pos hb, ih]; simp
      · have ha : ¬ a = a + 1 + k := by omega
        rw [if_neg hb, Mem.read, if_neg ha, ih]; simp

/-- A read after a write gives the byte written, and every other byte reads as before. -/
theorem Mem.read_write (m : Mem) (a x : Nat) (bs : List Byte) :
    Mem.read (Mem.write m a bs) x = if a ≤ x ∧ x < a + bs.length then bs.getD (x - a) 0 else Mem.read m x := by
  have hc := Mem.cells_range a bs
  unfold Mem.write
  by_cases h : a ≤ x ∧ x < a + bs.length
  · rw [if_pos h, List.append_assoc, Mem.read_append _ _ x (fun e he => by simp at he; omega),
      Mem.read_append_left _ _ x (fun e he => by simp at he; omega)]
    have : x = a + (x - a) := by omega
    rw [this, Mem.read_cells]
    simp
  · rw [if_neg h, List.append_assoc]
    by_cases hx : x < a
    · rw [Mem.read_append_left _ _ x (fun e he => by
        rcases List.mem_append.1 he with he | he
        · have := hc e he; omega
        · simp at he; omega)]
      exact Mem.read_filter m (fun k => decide (k < a)) x (by simpa using hx)
    · rw [Mem.read_append _ _ x (fun e he => by simp at he; omega),
        Mem.read_append _ _ x (fun e he => by have := hc e he; omega)]
      exact Mem.read_filter m (fun k => decide (a + bs.length ≤ k)) x (by simp; omega)

theorem Mem.length_bytes (m : Mem) (a n : Nat) : (Mem.bytes m a n).length = n := by simp [Mem.bytes]

/-- Reading back what was written. -/
theorem Mem.bytes_write_same (m : Mem) (a : Nat) (bs : List Byte) : Mem.bytes (Mem.write m a bs) a bs.length = bs := by
  apply List.ext_getElem
  · simp [Mem.bytes]
  · intro i h1 h2
    simp only [Mem.bytes, List.getElem_map, List.getElem_range, Mem.read_write]
    rw [if_pos (by omega)]
    simp [h2]

/-- Bytes apart from those written read as before. -/
theorem Mem.bytes_write_other (m : Mem) (a x n : Nat) (bs : List Byte) (h : x + n ≤ a ∨ a + bs.length ≤ x) :
    Mem.bytes (Mem.write m a bs) x n = Mem.bytes m x n := by
  apply List.map_congr_left
  intro i hi
  rw [Mem.read_write, if_neg (by have := List.mem_range.1 hi; omega)]

/-! ### The canonical form -/

/-- The canonical form, said of every pair of neighbours and every entry. -/
theorem Mem.wf_iff (m : Mem) :
    Mem.wf m = true ↔ m.Pairwise (fun d e => d.1 < e.1) ∧ ∀ e ∈ m, e.2 ≠ 0 := by
  induction m with
  | nil => simp [Mem.wf]
  | cons e r ih =>
    obtain ⟨a, b⟩ := e
    cases r with
    | nil => simp [Mem.wf]
    | cons d r =>
      obtain ⟨k, c⟩ := d
      rw [show Mem.wf ((a, b) :: (k, c) :: r) = (b != 0 && decide (a < k) && Mem.wf ((k, c) :: r)) from rfl,
        Bool.and_eq_true, Bool.and_eq_true, ih, List.pairwise_cons]
      simp only [bne_iff_ne, ne_eq, decide_eq_true_eq, List.pairwise_cons, List.mem_cons, forall_eq_or_imp]
      constructor
      · rintro ⟨⟨hb, hk⟩, ⟨hr, hp⟩, hc, hz⟩
        exact ⟨⟨⟨hk, fun e he => by have := hr e he; omega⟩, hr, hp⟩, hb, hc, hz⟩
      · rintro ⟨⟨⟨hk, _⟩, hr, hp⟩, hb, hc, hz⟩
        exact ⟨⟨hb, hk⟩, ⟨hr, hp⟩, hc, hz⟩

theorem Mem.wf_nil : Mem.wf [] = true := rfl

theorem Mem.wf_filter (m : Mem) (p : Host.Cell → Bool) (h : Mem.wf m = true) : Mem.wf (m.filter p) = true := by
  rw [Mem.wf_iff] at *
  exact ⟨h.1.filter p, fun e he => h.2 e (List.mem_filter.1 he).1⟩

theorem Mem.wf_cells (a : Nat) (bs : List Byte) : Mem.wf (Mem.cells a bs) = true := by
  induction bs generalizing a with
  | nil => rfl
  | cons b r ih =>
    by_cases hb : b = 0
    · simpa [Mem.cells, hb] using ih (a + 1)
    · have h := (Mem.wf_iff _).1 (ih (a + 1))
      rw [Mem.wf_iff]
      simp only [Mem.cells, hb, if_false, List.pairwise_cons, List.mem_cons, forall_eq_or_imp]
      exact ⟨⟨fun e he => by have := Mem.cells_range (a + 1) r e he; omega, h.1⟩, hb, h.2⟩

theorem Mem.wf_append (m n : Mem) (hm : Mem.wf m = true) (hn : Mem.wf n = true)
    (h : ∀ d ∈ m, ∀ e ∈ n, d.1 < e.1) : Mem.wf (m ++ n) = true := by
  rw [Mem.wf_iff] at *
  exact ⟨List.pairwise_append.2 ⟨hm.1, hn.1, h⟩, fun e he => (List.mem_append.1 he).elim (hm.2 e) (hn.2 e)⟩

/-- A write keeps the canonical form. -/
theorem Mem.wf_write (m : Mem) (a : Nat) (bs : List Byte) (h : Mem.wf m = true) : Mem.wf (Mem.write m a bs) = true := by
  have hc := Mem.cells_range a bs
  refine Mem.wf_append _ _ (Mem.wf_append _ _ (Mem.wf_filter m _ h) (Mem.wf_cells a bs) ?_) (Mem.wf_filter m _ h) ?_
  · intro d hd e he
    have := hc e he
    simp at hd; omega
  · intro d hd e he
    simp at he
    rcases List.mem_append.1 hd with hd | hd
    · simp at hd; omega
    · have := hc d hd; omega

theorem Mem.wf_map_add (m : Mem) (f : Nat → Nat) (h : Mem.wf m = true) (hf : ∀ x y, (∃ b, (x, b) ∈ m) → (∃ b, (y, b) ∈ m) → x < y → f x < f y) :
    Mem.wf (m.map (fun e => (f e.1, e.2))) = true := by
  rw [Mem.wf_iff] at *
  refine ⟨List.pairwise_map.2 (h.1.imp_of_mem fun {d e} hd he hlt => hf d.1 e.1 ⟨d.2, hd⟩ ⟨e.2, he⟩ hlt), ?_⟩
  intro e he
  obtain ⟨d, hd, rfl⟩ := List.mem_map.1 he
  exact h.2 d hd

/-- A part of a memory, moved to address 0, is in canonical form. -/
theorem Mem.wf_part (m : Mem) (a n : Nat) (h : Mem.wf m = true) : Mem.wf (Mem.part m a n) = true := by
  refine Mem.wf_map_add _ (fun x => x - a) (Mem.wf_filter m _ h) ?_
  rintro x y ⟨b, hx⟩ ⟨c, hy⟩ hlt
  simp at hx hy
  omega

/-- A memory laid into another keeps the canonical form. -/
theorem Mem.wf_blit (m : Mem) (a n : Nat) (src : Mem) (h : Mem.wf m = true) (hs : Mem.wf src = true) :
    Mem.wf (Mem.blit m a n src) = true := by
  refine Mem.wf_append _ _ (Mem.wf_append _ _ (Mem.wf_filter m _ h)
    (Mem.wf_map_add _ (fun x => a + x) (Mem.wf_filter src _ hs) ?_) ?_) (Mem.wf_filter m _ h) ?_
  · intro x y _ _ hlt; omega
  · intro d hd e he
    obtain ⟨c, hc, rfl⟩ := List.mem_map.1 he
    simp at hd; simp; omega
  · intro d hd e he
    simp at he
    rcases List.mem_append.1 hd with hd | hd
    · simp at hd; omega
    · obtain ⟨c, hc, rfl⟩ := List.mem_map.1 hd
      simp at hc; simp; omega

/-- A fold of steps that each keep a property keeps it. -/
theorem foldl_keeps {α β : Type} (P : β → Prop) (f : β → α → β) (l : List α) (b : β) (h : P b)
    (hf : ∀ b a, P b → P (f b a)) : P (l.foldl f b) := by
  induction l generalizing b with
  | nil => exact h
  | cons a r ih => exact ih (f b a) (hf b a h)

theorem wf_applyComb (m : Mem) (c : Comb) (h : Mem.wf m = true) : Mem.wf (applyComb m c) = true := Mem.wf_write m _ _ h

theorem wf_memAtomic (m : Mem) (op : AtomOp) (w32 : Bool) (a : Nat) (x y : Word) (h : Mem.wf m = true) :
    Mem.wf (memAtomic m op w32 a x y).2 = true := by
  simp only [memAtomic]
  split
  · exact Mem.wf_write m _ _ h
  · exact h

/-- What a home slice or port does to its memory for a request keeps the canonical form. -/
theorem wf_memServe (view m : Mem) (decay : Nat → Nat → Nat) (r : Req) (h : Mem.wf m = true) :
    Mem.wf (memServe view m decay r).2 = true := by
  have hw : ∀ l : List (Nat × Nat), Mem.wf (l.foldl (fun m e => Mem.write m e.1 (leBytes 8 e.2)) m) = true := fun l =>
    foldl_keeps (fun m => Mem.wf m = true) _ l m h (fun b a hb => Mem.wf_write b _ _ hb)
  unfold memServe
  cases r.op <;> simp only <;> first
    | exact h
    | exact foldl_keeps (fun m => Mem.wf m = true) _ _ m h (fun b a hb => Mem.wf_write b _ _ hb)
    | exact wf_memAtomic m _ _ _ _ _ h
    | (split <;> first | exact h | exact hw _)
    | skip

/-! ### Pools -/

theorem Tile.wf_poolWrite (t : Tile) (off : Nat) (bs : List Byte) (h : Mem.wf t.pool = true) :
    Mem.wf (t.poolWrite off bs).pool = true := by
  unfold Tile.poolWrite
  split
  · exact h
  · exact Mem.wf_write t.pool _ _ h

/-- A pool write puts its bytes there and leaves every other byte of the pool. -/
theorem Tile.read_poolWrite (t : Tile) (off x : Nat) (bs : List Byte) :
    Mem.read (t.poolWrite off bs).pool x =
      if off ≤ x ∧ x < off + bs.length then bs.getD (x - off) 0 else Mem.read t.pool x := by
  unfold Tile.poolWrite
  split
  · rw [if_neg (by omega)]
  · exact Mem.read_write t.pool off x bs

/-- A pool write changes of the volatile part only which divert slots software has written (R309). -/
theorem Tile.poolWrite_vol (t : Tile) (off : Nat) (bs : List Byte) :
    (t.poolWrite off bs).vol = { t.vol with dix := (t.poolWrite off bs).vol.dix } := by
  unfold Tile.poolWrite; split <;> rfl
@[simp] theorem Tile.poolWrite_mapg (t : Tile) (off : Nat) (bs : List Byte) : (t.poolWrite off bs).vol.mapg = t.vol.mapg := by
  rw [Tile.poolWrite_vol]
@[simp] theorem Tile.poolWrite_tlbL (t : Tile) (off : Nat) (bs : List Byte) : (t.poolWrite off bs).vol.tlbL = t.vol.tlbL := by
  rw [Tile.poolWrite_vol]
@[simp] theorem Tile.poolWrite_tlbC (t : Tile) (off : Nat) (bs : List Byte) : (t.poolWrite off bs).vol.tlbC = t.vol.tlbC := by
  rw [Tile.poolWrite_vol]
@[simp] theorem Tile.poolWrite_rq (t : Tile) (off : Nat) (bs : List Byte) : (t.poolWrite off bs).vol.rq = t.vol.rq := by
  rw [Tile.poolWrite_vol]
@[simp] theorem Tile.poolWrite_taskQ (t : Tile) (off : Nat) (bs : List Byte) : (t.poolWrite off bs).vol.taskQ = t.vol.taskQ := by
  rw [Tile.poolWrite_vol]
@[simp] theorem Tile.poolWrite_notices (t : Tile) (off : Nat) (bs : List Byte) : (t.poolWrite off bs).vol.notices = t.vol.notices := by
  rw [Tile.poolWrite_vol]
@[simp] theorem Tile.poolWrite_ring (t : Tile) (off : Nat) (bs : List Byte) : (t.poolWrite off bs).vol.ring = t.vol.ring := by
  rw [Tile.poolWrite_vol]
@[simp] theorem Tile.poolWrite_rspill (t : Tile) (off : Nat) (bs : List Byte) : (t.poolWrite off bs).vol.rspill = t.vol.rspill := by
  rw [Tile.poolWrite_vol]
@[simp] theorem Tile.poolWrite_decayA (t : Tile) (off : Nat) (bs : List Byte) : (t.poolWrite off bs).vol.decayA = t.vol.decayA := by
  rw [Tile.poolWrite_vol]
@[simp] theorem Tile.poolWrite_decayP (t : Tile) (off : Nat) (bs : List Byte) : (t.poolWrite off bs).vol.decayP = t.vol.decayP := by
  rw [Tile.poolWrite_vol]
@[simp] theorem Tile.poolWrite_phase (t : Tile) (off : Nat) (bs : List Byte) : (t.poolWrite off bs).vol.phase = t.vol.phase := by
  rw [Tile.poolWrite_vol]
@[simp] theorem Tile.poolWrite_owed (t : Tile) (off : Nat) (bs : List Byte) : (t.poolWrite off bs).vol.owed = t.vol.owed := by
  rw [Tile.poolWrite_vol]
@[simp] theorem Tile.poolWrite_failed (t : Tile) (off : Nat) (bs : List Byte) : (t.poolWrite off bs).vol.failed = t.vol.failed := by
  rw [Tile.poolWrite_vol]
@[simp] theorem Tile.poolWrite_detected (t : Tile) (off : Nat) (bs : List Byte) : (t.poolWrite off bs).vol.detected = t.vol.detected := by
  rw [Tile.poolWrite_vol]
@[simp] theorem Tile.poolWrite_halted (t : Tile) (off : Nat) (bs : List Byte) : (t.poolWrite off bs).vol.halted = t.vol.halted := by
  rw [Tile.poolWrite_vol]
@[simp] theorem Tile.poolWrite_switchAt (t : Tile) (off : Nat) (bs : List Byte) : (t.poolWrite off bs).vol.switchAt = t.vol.switchAt := by
  rw [Tile.poolWrite_vol]
@[simp] theorem Tile.poolWrite_switched (t : Tile) (off : Nat) (bs : List Byte) : (t.poolWrite off bs).vol.switched = t.vol.switched := by
  rw [Tile.poolWrite_vol]
@[simp] theorem Tile.poolWrite_written (t : Tile) (off : Nat) (bs : List Byte) : (t.poolWrite off bs).vol.written = t.vol.written := by
  rw [Tile.poolWrite_vol]
@[simp] theorem Tile.poolWrite_saved (t : Tile) (off : Nat) (bs : List Byte) : (t.poolWrite off bs).vol.saved = t.vol.saved := by
  rw [Tile.poolWrite_vol]
@[simp] theorem Tile.poolWrite_saveFault (t : Tile) (off : Nat) (bs : List Byte) : (t.poolWrite off bs).vol.saveFault = t.vol.saveFault := by
  rw [Tile.poolWrite_vol]
@[simp] theorem Tile.poolWrite_turn (t : Tile) (off : Nat) (bs : List Byte) : (t.poolWrite off bs).vol.turn = t.vol.turn := by
  rw [Tile.poolWrite_vol]
@[simp] theorem Tile.poolWrite_spent (t : Tile) (off : Nat) (bs : List Byte) : (t.poolWrite off bs).vol.spent = t.vol.spent := by
  rw [Tile.poolWrite_vol]
@[simp] theorem Tile.poolWrite_replay (t : Tile) (off : Nat) (bs : List Byte) : (t.poolWrite off bs).vol.replay = t.vol.replay := by
  rw [Tile.poolWrite_vol]
@[simp] theorem Tile.poolWrite_beat (t : Tile) (off : Nat) (bs : List Byte) : (t.poolWrite off bs).vol.beat = t.vol.beat := by
  rw [Tile.poolWrite_vol]
@[simp] theorem Tile.poolWrite_hold (t : Tile) (off : Nat) (bs : List Byte) : (t.poolWrite off bs).blk.hold = t.blk.hold := by
  unfold Tile.poolWrite; split <;> rfl

theorem Tile.wf_accWrite (t : Tile) (k : Nat) (f : Nat → Nat) (h : Mem.wf t.pool = true) :
    Mem.wf (t.accWrite k f).pool = true := Mem.wf_write t.pool _ _ h

theorem Tile.wf_setFragment (t : Tile) (a f : Nat) (bs : List Byte) (h : Mem.wf t.pool = true) :
    Mem.wf (t.setFragment a f bs).pool = true := Mem.wf_write t.pool _ _ h

/-- What a pool does for an arriving request keeps the canonical form. -/
theorem Tile.wf_serve (t : Tile) (r : Req) (h : Mem.wf t.pool = true) : Mem.wf (t.serve r).2.pool = true := by
  have hw : ∀ l : List (Nat × Nat), Mem.wf (l.foldl (fun t e => t.poolWrite e.1 (leBytes 8 e.2)) t).pool = true := fun l =>
    foldl_keeps (fun t : Tile => Mem.wf t.pool = true) _ l t h (fun b a hb => Tile.wf_poolWrite b _ _ hb)
  unfold Tile.serve
  cases r.op <;> simp only <;> repeat' split
  all_goals first
    | exact h
    | exact hw _
    | exact foldl_keeps (fun t : Tile => Mem.wf t.pool = true) _ _ t h (fun b a hb => Tile.wf_poolWrite b _ _ hb)
    | exact Tile.wf_poolWrite t _ _ h

/-! ### Bytes and words (R4) -/

theorem leBytes_length (n w : Nat) : (leBytes n w).length = n := by
  induction n generalizing w with
  | zero => rfl
  | succ n ih => simp [leBytes, ih]

/-- Bytes made of a number give the number back, modulo 256 to the count. -/
theorem leNat_leBytes (n w : Nat) : leNat (leBytes n w) = w % 256 ^ n := by
  induction n generalizing w with
  | zero => simp [leBytes, leNat, Nat.mod_one]
  | succ n ih =>
    simp only [leBytes, leNat, ih, BitVec.toNat_ofNat]
    exact (Nat.pow_succ' (n := n) (m := 256) ▸ Nat.mod_mul).symm

theorem vecBytes_length (v : Vec) : (vecBytes v).length = 128 := leBytes_length 128 _

/-- R4, R137: the memory image of a vector gives the vector back. -/
theorem vecOfBytes_vecBytes (v : Vec) : vecOfBytes (vecBytes v) = v := by
  unfold vecOfBytes vecBytes
  rw [leNat_leBytes]
  apply BitVec.eq_of_toNat_eq
  have h : (256 : Nat) ^ 128 = 2 ^ 1024 := (Nat.pow_mul 2 8 128).symm
  have hv := v.isLt
  rw [BitVec.toNat_ofNat, h, Nat.mod_mod, Nat.mod_eq_of_lt hv]

/-- R137: a vector register read after a write. -/
theorem Tile.rv_wv (t : Tile) (c : Nat) (r : RegNo) (v : Vec) : (t.wv c r v).rv c r = v := by
  have hp : (t.wv c r v).pool = Mem.write t.pool (ctxArea c + 128 * r.toNat) (vecBytes v) := by
    unfold Tile.wv Tile.poolWrite
    rw [if_neg (by rw [vecBytes_length]; decide)]
  have hb := Mem.bytes_write_same t.pool (ctxArea c + 128 * r.toNat) (vecBytes v)
  rw [vecBytes_length] at hb
  unfold Tile.rv
  rw [hp, hb, vecOfBytes_vecBytes]

/-- R137: another vector register of the same context keeps its value. -/
theorem Tile.rv_wv_other (t : Tile) (c : Nat) (r q : RegNo) (v : Vec) (h : q ≠ r) : (t.wv c r v).rv c q = t.rv c q := by
  have hn : q.toNat ≠ r.toNat := fun e => h (BitVec.eq_of_toNat_eq e)
  have hp : (t.wv c r v).pool = Mem.write t.pool (ctxArea c + 128 * r.toNat) (vecBytes v) := by
    unfold Tile.wv Tile.poolWrite
    rw [if_neg (by rw [vecBytes_length]; decide)]
  unfold Tile.rv
  rw [hp, Mem.bytes_write_other]
  rw [vecBytes_length]
  omega

end Sys2Proof.Machine
end

