-- ==== Sys2Proof/Laws/Issue.lean ====
section
/-! SUPPORT. What the shared operations of an issue can do: passing issue on, going past a unit, taking a trap. Each lemma says
it once; the proofs about single instructions cite it. -/

namespace Sys2Proof.Machine

/-! ### Updates in a row -/

theorem Tbl.put_put {α : Type} (t : Tbl α) (k : Nat) (a b : α) : Tbl.put (Tbl.put t k a) k b = Tbl.put t k b := by
  induction t with
  | nil => simp [Tbl.put]
  | cons e r ih =>
    obtain ⟨i, c⟩ := e
    by_cases h : i = k <;> simp [Tbl.put, h, ih]

theorem State.setTile_setTile (s : State) (k : Nat) (a b : Tile) : (s.setTile k a).setTile k b = s.setTile k b := by
  simp [State.setTile, Tbl.put_put]

/-- Two changes of the core in hand are one. -/
theorem State.modMe_modMe (s : State) (f g : Tile → Tile) : (s.modMe f).modMe g = s.modMe (fun t => g (f t)) := by
  simp [State.modMe, State.modTile, State.setTile_setTile]

theorem State.modCx_modMe (s : State) (f : Ctx → Ctx) (g : Tile → Tile) :
    (s.modCx f).modMe g = s.modMe (fun t => g (t.modCtx t.blk.hold f)) := State.modMe_modMe s _ g

/-- What a change of the core in hand leaves alone. -/
theorem State.modMe_rest (s : State) (f : Tile → Tile) : s.modMe f = { s with tiles := (s.modMe f).tiles } := rfl

/-! ### Counters -/

theorem Tile.tally_eq (t : Tile) (ev c n : Nat) :
    t.tally ev c n = { t with blk := { t.blk with ct := { t.blk.ct with pcs := (t.tally ev c n).blk.ct.pcs } } } := rfl

/-- One unit is counted, in UCNT and the performance counters alone. -/
theorem Tile.countUnit_eq (t : Tile) :
    t.countUnit = { t with blk := { t.blk with ct := { t.blk.ct with ucnt := t.blk.ct.ucnt + 1, pcs := t.countUnit.blk.ct.pcs } } } := by
  unfold Tile.countUnit
  simp only
  split <;> rfl

/-! ### Passing issue on (R55) -/

/-- A core after issue has moved: another holder, whether issue is free, and other counter values. -/
def Tile.passed (t : Tile) (h : Nat) (fr : Bool) (pcs : Vector (BitVec 48) 8) : Tile :=
  { t with blk := { t.blk with hold := h, free := fr, ct := { t.blk.ct with pcs := pcs } } }

@[simp] theorem Tile.passed_pool (t : Tile) (h : Nat) (fr : Bool) (pcs : Vector (BitVec 48) 8) : (t.passed h fr pcs).pool = t.pool := rfl
@[simp] theorem Tile.passed_vol (t : Tile) (h : Nat) (fr : Bool) (pcs : Vector (BitVec 48) 8) : (t.passed h fr pcs).vol = t.vol := rfl
@[simp] theorem Tile.passed_ctx (t : Tile) (h : Nat) (fr : Bool) (pcs : Vector (BitVec 48) 8) (c : Nat) : (t.passed h fr pcs).ctx c = t.ctx c := rfl

/-- Passing issue on changes the holder of issue, whether it is free, and the performance counters of the core in hand, and nothing else. -/
theorem State.pass_spec (s : State) : ∃ h fr pcs, s.pass = s.modMe (fun t => t.passed h fr pcs) := by
  unfold State.pass
  simp only
  split
  · refine ⟨s.me.blk.hold, true, (s.me.tally 0x03 s.me.blk.hold 1).blk.ct.pcs, ?_⟩
    rw [State.modMe_modMe]
    rfl
  · rename_i k _
    refine ⟨k, false, (s.me.tally 0x03 s.me.blk.hold 1).blk.ct.pcs, ?_⟩
    rw [State.modMe_modMe]
    rfl

/-! ### Going past a unit (R55, R57) -/

/-- The state of the context after a unit: ready, or waiting at a switch marker. -/
def Ctx.after (sw : Bool) (c : Ctx) : RunState :=
  if sw && !c.outs.isEmpty then .waiting (.results (c.outs.map (fun o => o.id))) else .ready

/-- Going on changes the state of the context in hand, and where that waits, the holder, whether issue is free, and the counters. -/
theorem State.goOn_spec (s : State) (sw : Bool) :
    ∃ h fr pcs, s.goOn sw = s.modMe (fun t => (t.modCtx t.blk.hold (fun c => { c with run := c.after sw })).passed h fr pcs) := by
  unfold State.goOn
  split
  · rename_i hc
    obtain ⟨h, fr, pcs, e⟩ := State.pass_spec (s.modCx fun c => { c with run := .waiting (.results (c.outs.map (fun o => o.id))) })
    refine ⟨h, fr, pcs, ?_⟩
    rw [e, State.modCx_modMe]
    simp only [State.modMe, State.modTile]
    congr 1
    have : (s.tile s.cur).ctx (s.tile s.cur).blk.hold = s.cx := rfl
    simp only [Tile.modCtx, this, Ctx.after, hc, if_true]
  · rename_i hc
    refine ⟨s.me.blk.hold, s.me.blk.free, s.me.blk.ct.pcs, ?_⟩
    simp only [State.modCx, State.modMe, State.modTile]
    congr 1
    have : (s.tile s.cur).ctx (s.tile s.cur).blk.hold = s.cx := rfl
    simp only [Tile.modCtx, this, Ctx.after, hc, Bool.false_eq_true, if_false]
    rfl

/-- The core after a unit that ran past: pc at the next unit, one unit counted, issue kept or passed on. -/
def Tile.wentOn (t : Tile) (pc : Word) (sw : Bool) (h : Nat) (fr : Bool) (pcs : Vector (BitVec 48) 8) : Tile :=
  { (t.modCtx t.blk.hold (fun c => { c with pc := pc, run := c.after sw })) with
    blk := { (t.modCtx t.blk.hold (fun c => { c with pc := pc, run := c.after sw })).blk with
      hold := h, free := fr, ct := { t.blk.ct with ucnt := t.blk.ct.ucnt + 1, pcs := pcs } } }

/-- Everything that setting pc and going on can do. -/
theorem State.goto_spec (s : State) (pc : Word) (sw : Bool) :
    ∃ h fr pcs, (((s.modCx fun c => { c with pc := pc }).modMe Tile.countUnit).goOn sw) = s.modMe (fun t => t.wentOn pc sw h fr pcs) := by
  obtain ⟨h, fr, pcs, e⟩ := State.goOn_spec ((s.modCx fun c => { c with pc := pc }).modMe Tile.countUnit) sw
  refine ⟨h, fr, pcs, ?_⟩
  rw [e, State.modCx_modMe, State.modMe_modMe]
  simp only [State.modMe, State.modTile]
  congr 1
  rw [Tile.countUnit_eq]
  simp [Tile.wentOn, Tile.modCtx, Tile.setCtx, Tile.passed, Tile.ctx, Block.ctx, Block.setCtx, ctxIx, vector_get_set, Ctx.after]

/-- Everything that going past a unit can do: pc, the state of the context, the unit count, and issue. -/
theorem State.advance_spec (s : State) (pc : Word) (u : VUnit) :
    ∃ h fr pcs, s.advance pc u = s.modMe (fun t => t.wentOn (pc + BitVec.ofNat 64 u.len) u.sw h fr pcs) :=
  State.goto_spec s (pc + BitVec.ofNat 64 u.len) u.sw

@[simp] theorem Tile.wentOn_pool (t : Tile) (pc : Word) (sw : Bool) (h : Nat) (fr : Bool) (pcs : Vector (BitVec 48) 8) :
    (t.wentOn pc sw h fr pcs).pool = t.pool := rfl
@[simp] theorem Tile.wentOn_vol (t : Tile) (pc : Word) (sw : Bool) (h : Nat) (fr : Bool) (pcs : Vector (BitVec 48) 8) :
    (t.wentOn pc sw h fr pcs).vol = t.vol := rfl
@[simp] theorem Tile.wentOn_ctx (t : Tile) (pc : Word) (sw : Bool) (h : Nat) (fr : Bool) (pcs : Vector (BitVec 48) 8) :
    (t.wentOn pc sw h fr pcs).ctx t.blk.hold = { t.ctx t.blk.hold with pc := pc, run := (t.ctx t.blk.hold).after sw } :=
  Tile.ctx_modCtx t t.blk.hold (fun c => { c with pc := pc, run := c.after sw })
theorem Tile.wentOn_ctx_other (t : Tile) (pc : Word) (sw : Bool) (h : Nat) (fr : Bool) (pcs : Vector (BitVec 48) 8) (c : Nat)
    (hc : c % 8 ≠ t.blk.hold % 8) : (t.wentOn pc sw h fr pcs).ctx c = t.ctx c :=
  Tile.ctx_modCtx_other t t.blk.hold c (fun c => { c with pc := pc, run := c.after sw }) hc

/-! ### What an issue comes to -/

/-- A unit that is enabled and names no outstanding register does its effect. -/
theorem issue_free {u : VUnit} {gs vs : List RegNo} {f : State → Act} {s : State} (he : s.enabled u = true)
    (hb : s.cx.blocking gs vs = []) : issue u gs vs f s = (f s).run u s := by
  simp [issue, he, hb]

/-- A unit whose predicate is off goes past (R93). -/
theorem issue_off {u : VUnit} {gs vs : List RegNo} {f : State → Act} {s : State} (he : s.enabled u = false) :
    issue u gs vs f s = .next (s.advance s.cx.pc u) := by
  simp [issue, he, Act.run]

theorem issueLanes_free {u : VUnit} {gs vs : List RegNo} {f : State → Act} {s : State}
    (hb : s.cx.blocking gs vs = []) : issueLanes u gs vs f s = (f s).run u s := by
  simp [issueLanes, hb]

/-- What a unit's effect comes to is never a refusal. -/
theorem Act.run_not_refused (a : Act) (u : VUnit) (s : State) (r : Refusal) : a.run u s ≠ .refused r := by
  cases a <;> simp [Act.run]

theorem issue_not_refused (u : VUnit) (gs vs : List RegNo) (f : State → Act) (s : State) (r : Refusal) :
    issue u gs vs f s ≠ .refused r := by
  unfold issue
  split
  · split <;> apply Act.run_not_refused
  · apply Act.run_not_refused

theorem issueLanes_not_refused (u : VUnit) (gs vs : List RegNo) (f : State → Act) (s : State) (r : Refusal) :
    issueLanes u gs vs f s ≠ .refused r := by
  unfold issueLanes
  split <;> apply Act.run_not_refused

theorem issueSupervisor_not_refused (u : VUnit) (gs : List RegNo) (f : State → Act) (s : State) (r : Refusal) :
    issueSupervisor u gs f s ≠ .refused r := by
  unfold issueSupervisor
  split
  · apply issue_not_refused
  · apply Act.run_not_refused

end Sys2Proof.Machine
end

