-- ==== Sys2Proof/Tests/Slice0.lean ====
section
/-! SUPPORT. The model's own tests: ill-formed terms, words written out from the encoding tables of spec/, single steps with results
worked out by hand from the rules, and for every statement with hypotheses a state and operands that meet them. -/

open Sys2Proof Sys2Proof.Machine Sys2Proof.Claims

namespace Sys2Proof.Tests
set_option Elab.async false

/-! ### Units and states that the tests use -/

/-- The unit of one word with fields zero. -/
def u0 : VUnit := { xp := false, xq := none, xr := false, nxi := 0, xi := 0, a := 0, b := 0, c := 0, k := false, sw := false }
def abc (a b c : RegNo) : VUnit := { u0 with xr := true, a := a, b := b, c := c }
/-- A unit of page 3 to 6 with an immediate or offset. -/
def xu (a b c : RegNo) (xi : Nat) (xr : Bool) : VUnit := { u0 with xp := true, xr := xr, a := a, b := b, c := c, nxi := 1, xi := BitVec.ofNat 30 xi }

/-- Tile 0 with contexts 0 and 1 running, an image of 128 bytes and a handler. -/
def w0 : State := State.reset.modTile 0 fun t => ((t.modCtx 0 fun c => { (((c.wg 1 160).wg 2 7).wg 3 9).wg 63 40 with run := .ready, pc := 16 }).modCtx 1
  fun c => { c.wg 1 99 with run := .ready, pc := 32 }).modLr fun r => { r with xb := 128, part := 0x81, started := true, trv := 64, gw := 2, gh := 2, bent := 70 }
def on0 (f : Tile → Tile) (s : State) : State := s.modTile 0 f
def cx0 (f : Ctx → Ctx) (s : State) : State := s.modTile 0 fun t => t.modCtx 0 f
def lr0 (f : LaunchRegs → LaunchRegs) (s : State) : State := s.modTile 0 fun t => t.modLr f
def arg0 (s : State) (a : EvArg) : State := { s with arg := a }

theorem free_w0 (gs vs : List RegNo) : Free w0 u0 gs vs := ⟨by decide, rfl⟩
theorem lanes_w0 (gs vs : List RegNo) : LanesFree w0 gs vs := rfl
theorem relFree_none {s : State} {r : Option Nat} (h : r = none) : RelFree s r := by
  subst h; intro k h; cases h
/-- Device time as a core reads it lags the time base by up to 4 ns (R389). -/
theorem timeAt_late {s : State} {n : Nat} (core : Nat) (h : n + 4 ≤ s.clk.now / 2 ^ 32) (h2 : s.clk.now / 2 ^ 32 < 2 ^ 64) : n ≤ (s.timeAt core).toNat := by
  have := Nat.mod_lt (Config.fieldLag (fieldOf (homeCluster core))) (by decide : 5 > 0)
  simp only [State.timeAt, BitVec.toNat_ofNat]; omega
theorem timeAt_early {s : State} {n : Nat} (core : Nat) (h : s.clk.now / 2 ^ 32 < n) : (s.timeAt core).toNat < n := by
  have := Nat.mod_le (s.clk.now / 2 ^ 32 - Config.fieldLag (fieldOf (homeCluster core)) % 5) (2 ^ 64)
  simp only [State.timeAt, BitVec.toNat_ofNat]; omega
theorem brimDue_of {s : State} {core : Nat} (h : (let r := (s.tile core).blk.lr
      r.gang.isSome && r.started && !r.brimFired && r.dln != 0xFFFFFFFFFFFFFFFF && s.alive core) = true)
    (h1 : (s.tile core).blk.lr.brt.toNat + 4 ≤ s.clk.now / 2 ^ 32) (h2 : s.clk.now / 2 ^ 32 < 2 ^ 64) : s.brimDue core = true := by
  have := timeAt_late core h1 h2
  simp_all [State.brimDue]
theorem deadlineDue_of {s : State} {core : Nat} (h : (let r := (s.tile core).blk.lr
      r.gang.isSome && r.started && !r.dlnFired && r.dln != 0xFFFFFFFFFFFFFFFF && !(s.tile core).vol.switched) = true)
    (h1 : (s.tile core).blk.lr.dln.toNat + 4 ≤ s.clk.now / 2 ^ 32) (h2 : s.clk.now / 2 ^ 32 < 2 ^ 64) : s.deadlineDue core = true := by
  have := timeAt_late core h1 h2
  simp_all [State.deadlineDue]
theorem switchDue_of {s : State} {core : Nat} {t : Word} (h : (s.tile core).vol.switchAt = some t) (h1 : t.toNat + 4 ≤ s.clk.now / 2 ^ 32)
    (h2 : s.clk.now / 2 ^ 32 < 2 ^ 64) : s.switchDue core = true := by
  have := timeAt_late core h1 h2
  simp_all [State.switchDue]
theorem timely_of {s : State} {core : Nat} (h : s.brimDue core = true) : (s.timely core).isSome = true := by
  unfold State.timely
  split
  · simp [execDeadlineTime]
  · simp [h]
theorem overdue_of {s : State} {k : Nat} (h : (Tbl.look s.tiles k).isSome = true) (h1 : (s.timely k).isSome = true) : s.overdue.isSome = true := by
  have hm : ∃ x, (k, x) ∈ s.tiles := by
    revert h; generalize s.tiles = l; intro h
    induction l with
    | nil => simp [Tbl.look] at h
    | cons e r ih =>
      obtain ⟨i, b⟩ := e
      by_cases hk : i = k
      · exact ⟨b, by simp [hk]⟩
      · obtain ⟨x, hx⟩ := ih (by simpa [Tbl.look, hk] using h)
        exact ⟨x, by simp [hx]⟩
  obtain ⟨x, hx⟩ := hm
  unfold State.overdue
  cases hf : s.tiles.find? (fun e => (s.timely e.1).isSome) with
  | none => exact absurd h1 (by simpa using List.find?_eq_none.mp hf _ hx)
  | some e => simpa using List.find?_some hf
theorem all_single {α : Type} {l : List α} {a : α} {P : α → Prop} (h : l = [a]) (p : P a) : ∀ e ∈ l, P e := by
  subst h; simpa using p

/-! ### Ill-formed terms: one for each check of R84 to R94 -/

theorem test_wf_accepts : (WellFormed (.add (abc 5 3 7)) && WellFormed (.done u0) && WellFormed (.mma { u0 with xp := true, a := 9 }) &&
    WellFormed (.ldw { xu 40 3 41 200 true with xq := some { pred := 2, neg := false, hi := 5, lo := 1 } })) = true := by decide
/-- R84: page 1 needs its XP. -/
theorem test_wf_no_page_prefix : WellFormed (.vadd u0) = false := by decide
/-- R84: at most four prefixes. -/
theorem test_wf_too_many_prefixes :
    WellFormed (.ldw { xu 0 3 41 1000 true with xq := some { pred := 0, neg := false, hi := 5, lo := 0 }, nxi := 2 }) = false := by decide
/-- R86: without XR no number above 15 and no operand c. -/
theorem test_wf_number_without_xr : (WellFormed (.mov { u0 with a := 16 }) || WellFormed (.sel { abc 1 2 3 with xr := false })) = false := by decide
/-- R87: the payload fits the XI words carried. -/
theorem test_wf_payload_too_wide : WellFormed (.addImm { u0 with k := true, nxi := 1, xi := 1024 }) = false := by decide
/-- R88: K, XR and operand c as the pattern has them. -/
theorem test_wf_pattern : (WellFormed (.nop { u0 with k := true }) || WellFormed (.done { u0 with xr := true }) || WellFormed (.mov (abc 1 2 3)) ||
    WellFormed (.sel { u0 with a := 1 })) = false := by decide
/-- R89: the XI words of the pattern; a bit of the XI word that is not assigned. -/
theorem test_wf_xi_words : (WellFormed (.mov { u0 with nxi := 1 }) || WellFormed (.cbeq u0) || WellFormed (.shadd { abc 1 2 3 with nxi := 1, xi := 8 })) = false := by
  decide
/-- R90: register numbers past their file, and numbers that must be multiples. -/
theorem test_wf_registers : (WellFormed (.vadd { abc 32 0 0 with xp := true }) || WellFormed (.pand { abc 8 0 0 with xp := true }) ||
    WellFormed (.send (xu 6 1 0 0 false)) || WellFormed (.mzero { u0 with xp := true, a := 8 }) || WellFormed (.done { u0 with a := 1 })) = false := by decide
/-- R92, R94: codes of XQ that the instruction does not accept; a predicate where none is assigned; a bare FENCE. -/
theorem test_wf_qualifiers : (WellFormed (.vrcp { u0 with xp := true, xq := some { pred := 0, neg := false, hi := 0, lo := 3 } }) ||
    WellFormed (.add { u0 with xq := some { pred := 0, neg := false, hi := 1, lo := 0 } }) ||
    WellFormed (.sskip { abc 1 2 0 with xp := true, xq := some { pred := 1, neg := false, hi := 0, lo := 0 } }) ||
    WellFormed (.fence { u0 with xp := true })) = false := by decide
/-- R144, R160, R287, R323, R407: limits that a description gives. -/
theorem test_wf_limits : (WellFormed (.gets { u0 with nxi := 1, xi := 0x00C }) || WellFormed (.sets { u0 with nxi := 1, xi := 0x001 }) ||
    WellFormed (.bfx { abc 1 2 60 with nxi := 1, xi := 4 }) || WellFormed (.vlds (xu 1 2 3 0x1B true)) || WellFormed (.send (xu 4 1 0 8 false)) ||
    WellFormed (.seqq (xu 1 2 0 6 false))) = false := by decide

/-! ### Words written out from the encoding tables -/

def bytes (ws : List Nat) : List Byte := bytesOfWords (ws.map (BitVec.ofNat 16))

/-- 03, worked examples: `add g5, g5, -1`; `cbne g5, g0, -1`; `done`; the 14-bit form of `add g5, g5, 1000`. -/
theorem test_words_page0 : decode (bytes [0x0D7E]) = .addImm { u0 with a := 5, b := 15, k := true } ∧ ({ u0 with a := 5, b := 15, k := true } : VUnit).ik = -1 ∧
    decode (bytes [0xF3FF, 0x9940]) = .cbne { u0 with a := 5, nxi := 1, xi := 0x3FF } ∧ ({ u0 with nxi := 1, xi := 0x3FF } : VUnit).ic = -1 ∧
    decode (bytes [0xC000]) = .done u0 ∧
    decode (bytes [0xF03E, 0x0D62]) = .addImm { u0 with a := 5, b := 8, k := true, nxi := 1, xi := 0x3E } ∧
    ({ u0 with a := 5, b := 8, k := true, nxi := 1, xi := 0x3E } : VUnit).ik = 1000 := by decide
/-- 03, worked example: `(p2) ldw.gang.acq g40, [g3+g41+200]`. -/
theorem test_words_every_prefix : decode (bytes [0xF803, 0xFD29, 0xF629, 0xF0C8, 0x0A0C]) =
    .ldw { xu 40 3 41 200 true with xq := some { pred := 2, neg := false, hi := 5, lo := 1 } } := by decide
/-- 03, worked example: XQ after XR breaks the order, and the word that breaks it is named. -/
theorem test_words_bad_order : decode (bytes [0xF803, 0xF629, 0xFD29]) = .illegalInstruction 4 := by decide
/-- R81 to R98, by hand: page 0 with XR; GETS; MMA; VADD; LDW; SEND; RECV; TLBP; LEASE; ARV; STEP. -/
theorem test_words_pages : decode (bytes [0xF407, 0x0D4C]) = .add (abc 5 3 7) ∧
    decode (bytes [0xF014, 0xCE80]) = .gets { u0 with a := 10, nxi := 1, xi := 0x14 } ∧
    decode (bytes [0xF802, 0x1010]) = .mma { u0 with xp := true, b := 4 } ∧ decode (bytes [0xF801, 0x1004]) = .vadd { u0 with xp := true, b := 1 } ∧
    decode (bytes [0xF803, 0xF008, 0x0914]) = .ldw (xu 4 5 0 8 false) ∧ decode (bytes [0xF804, 0xF012, 0x0218]) = .send (xu 8 6 0 0x12 false) ∧
    decode (bytes [0xF804, 0xF40C, 0xF001, 0x0A00]) = .recv (xu 8 0 12 1 true) ∧ decode (bytes [0xF805, 0x0928]) = .tlbp { u0 with xp := true, a := 4, b := 10 } ∧
    decode (bytes [0xF802, 0x0180]) = .lease { u0 with xp := true, a := 6 } ∧ decode (bytes [0xF806, 0x0000]) = .arv { u0 with xp := true } ∧
    decode (bytes [0xF806, 0x201C]) = .step { u0 with xp := true, b := 7 } := by decide

/-! ### Single steps, with results from the spec's worked examples or worked out by hand from its rules -/

/-- A register of context 0 of tile 0 after an instruction. -/
def after (i : Instr) (s : State) (r : RegNo) : Option Word := match exec i s with | .next t => some (((t.tile 0).ctx 0).rg r) | _ => none
/-- An element of a vector register after it. -/
def elAfter (i : Instr) (s : State) (r : RegNo) (w k : Nat) : Option Nat := match exec i s with | .next t => some (vecEl w ((t.tile 0).rv 0 r) k) | _ => none
def pcAfter (i : Instr) (s : State) : Option Word := match exec i s with | .next t => some ((t.tile 0).ctx 0).pc | _ => none
def regs (l : List (RegNo × Word)) : State := cx0 (fun c => l.foldl (fun c e => c.wg e.1 e.2) c) w0

theorem test_add_wraps : after (.add (abc 5 1 2)) (regs [(1, 0xFFFFFFFFFFFFFFFF), (2, 3)]) 5 = some 2 := by decide +kernel
/-- R156: g0 as destination keeps nothing. -/
theorem test_g0_reads_zero : after (.add (abc 0 1 2)) w0 0 = some 0 := by decide +kernel
/-- R156: the second of two operands is subtracted from the first. -/
theorem test_sub_order : after (.sub (abc 5 1 2)) (regs [(1, 5), (2, 9)]) 5 = some 0xFFFFFFFFFFFFFFFC := by decide +kernel
theorem test_mulh_signs : after (.mulh (abc 5 1 2)) (regs [(1, 0xFFFFFFFFFFFFFFFF), (2, 0xFFFFFFFFFFFFFFFF)]) 5 = some 0 ∧
    after (.mulhu (abc 5 1 2)) (regs [(1, 0xFFFFFFFFFFFFFFFF), (2, 0xFFFFFFFFFFFFFFFF)]) 5 = some 0xFFFFFFFFFFFFFFFE := by decide +kernel
/-- R157: division by zero, the overflowing quotient, and truncation toward zero. -/
theorem test_div_corners : after (.div (abc 5 1 0)) w0 5 = some 0xFFFFFFFFFFFFFFFF ∧ after (.rem (abc 5 1 0)) w0 5 = some 160 ∧
    after (.div (abc 5 1 2)) (regs [(1, 0x8000000000000000), (2, 0xFFFFFFFFFFFFFFFF)]) 5 = some 0x8000000000000000 ∧
    after (.rem (abc 5 1 2)) (regs [(1, 0xFFFFFFFFFFFFFFF9), (2, 2)]) 5 = some 0xFFFFFFFFFFFFFFFF := by decide +kernel
/-- R156: a shift amount is taken modulo 64. -/
theorem test_shift_amount : after (.shl (abc 5 1 2)) (regs [(1, 3), (2, 65)]) 5 = some 6 ∧
    after (.sar (abc 5 1 2)) (regs [(1, 0x8000000000000000), (2, 63)]) 5 = some 0xFFFFFFFFFFFFFFFF := by decide +kernel
/-- R164, 03's example: the branch offset counts words from the unit's own offset. -/
theorem test_branch_back : pcAfter (.cbne { u0 with a := 1, nxi := 1, xi := 0x3FF }) w0 = some 14 ∧
    pcAfter (.cbne { u0 with a := 5, nxi := 1, xi := 0x3FF }) w0 = some 20 := by decide +kernel
theorem test_call_links : after (.call { u0 with b := 4 }) w0 63 = some 18 ∧ pcAfter (.call { u0 with b := 4 }) w0 = some 24 := by decide +kernel
/-- R170, R154: TRA holds the code above the next unit's offset; pc goes to TRV. -/
theorem test_trap_entry : (match exec (.trap { u0 with b := 3 }) w0 with
    | .next t => let c := (t.tile 0).ctx 0; some (c.pc, c.epc, c.tra, c.trc) | _ => none) = some (64, 16, 0x300000012, 0x21A) := by decide +kernel
/-- R144: TID of tile (0, 0), and the tile number of (191, 159). -/
theorem test_tile_numbers : after (.gets { u0 with a := 5, nxi := 1, xi := 2 }) (regs [(5, 7)]) 5 = some 0 ∧ tileNo 191 159 = 30719 := by decide +kernel
/-- R359, 02's example: from (77, 130) to (81, 130) are four hops. -/
theorem test_hops : State.reset.hops (tileNo 77 130) (tileNo 81 130) = 4 := by decide +kernel
/-- 04, worked example: exp2 of 1.001953125. -/
theorem test_exp2 : exp2 0x3F804000 = 0x40002C64 := by decide +kernel
/-- 04, worked example: packing one L8 group. -/
theorem test_block_pack : let p := blockPack 8 ([0x3F7FC000, 0xBF000000, 0x3CA00000, 0xBCA00000] ++ List.replicate 12 0)
    (p.e, p.q.take 5) = (0xF9, [127, -64, 2, -2, 0]) := by decide +kernel
/-- R183: saturation and wrapping of s16 elements; R176: a lane that is off keeps its element. -/
theorem test_vadd : let s := on0 (fun t => (t.wv 0 1 0x7FFF7FFF).wv 0 2 0x00010001) w0
    elAfter (.vadd { abc 3 1 2 with xp := true, xq := some { pred := 0, neg := false, hi := 4, lo := 4 } }) s 3 16 0 = some 0x7FFF ∧
    elAfter (.vadd { abc 3 1 2 with xp := true, xq := some { pred := 0, neg := false, hi := 0, lo := 4 } }) s 3 16 1 = some 0x8000 ∧
    elAfter (.vadd { abc 1 1 2 with xp := true, xq := some { pred := 0, neg := true, hi := 0, lo := 4 } }) s 1 16 0 = some 0x7FFF := by decide +kernel
/-- R284: a signed byte load extends; a doubleword is little-endian. -/
theorem test_loads : let s := on0 (fun t => { t with pool := Mem.write t.pool 160 [0x80, 1, 2, 3, 4, 5, 6, 7] }) w0
    after (.ldb (xu 5 1 0 0 false)) s 5 = some 0xFFFFFFFFFFFFFF80 ∧ after (.ldd (xu 5 1 0 0 false)) s 5 = some 0x0706050403020180 := by decide +kernel
theorem test_store_word : (match exec (.stw (xu 2 1 0 4 false)) w0 with | .next t => some (Mem.bytes (t.tile 0).pool 163 6) | _ => none) =
    some [0, 7, 0, 0, 0, 0] := by decide +kernel
/-- R279: an access below XB is an execute-region fault, and a store there changes nothing. -/
theorem test_store_below_xb : (match exec (.stw (xu 2 0 0 64 false)) w0 with
    | .next t => some ((t.tile 0).pool, ((t.tile 0).ctx 0).trc, ((t.tile 0).ctx 0).tra) | _ => none) = some ([], 0x208, 64) := by decide +kernel
/-- R291: an atomic add answers the old word. -/
theorem test_aadd : let s := on0 (fun t => { t with pool := Mem.write t.pool 160 [5] }) w0
    after (.aadd (xu 2 1 0 0 false)) s 2 = some 5 ∧
    (match exec (.aadd (xu 2 1 0 0 false)) s with | .next t => some (Mem.nat (t.tile 0).pool 160 8) | _ => none) = some 12 := by decide +kernel
/-- R409: ARV on a domain that the tile is no member of is an illegal instruction. -/
theorem test_arv_no_member : (match exec (.arv { u0 with xp := true, b := 3 }) w0 with | .next t => some ((t.tile 0).ctx 0).trc | _ => none) = some 0x201 := by decide +kernel
/-- R456, R466, R486, R498: registers of the management block after reset, and a TAIL. -/
theorem test_register_view : State.reset.registerRead 0x30 = 1000000 ∧ State.reset.registerRead 0x4000 = 0x8000000000000000 ∧
    State.reset.registerRead 0x4010 = 0x0000100000000000 ∧ State.reset.registerRead 0x4040 = 0xFFFFFFFFFFFFFFFF ∧
    State.reset.registerRead 0x4200 = 0 ∧ State.reset.registerRead 0x31000 = 0x4000000000000000 ∧
    (State.reset.modQueue 1 fun k => { k with tail := 5, state := 1, tkt := 3 }).registerRead 0x10050 = 0x0000000500000000 ∧
    (State.reset.modQueue 1 fun k => { k with tail := 5, state := 1, tkt := 3 }).registerRead 0x10048 = 0x0003000100000000 := by decide +kernel

/-- Entry 18: a step runs the unit that stands at pc. -/
theorem test_step_runs_the_word : (match step (w0.withFetchWord 16 0x0D7E) with | .next t => some (((t.tile t.cur).ctx 0).rg 5, ((t.tile t.cur).ctx 0).pc) | _ => none) =
    some (0xFFFFFFFFFFFFFFFF, 2) := by decide +kernel

/-! ### What the hypotheses of the statements ask is met: decoding, the step, page 0 -/

def uOff : VUnit := { u0 with xq := some { pred := 0, neg := true, hi := 0, lo := 0 } }
def out1 : Outs := { id := 7, gs := [4], vs := [5], how := .scalar 4 8 false, kind := .dev, need := 1, got := [], acq := none, dropped := [] }
/-- A result is outstanding in g4. -/
def wOut : State := cx0 (fun c => { c with outs := [out1] }) w0
/-- A supervisor on a tile; and the TSC of cluster 0, with a trap handler. -/
def wSup : State := cx0 (fun c => { c with supervisor := true }) w0
def tsc (l : List (RegNo × Word)) : State := { (w0.modTile 30720 fun t => t.modCtx 0 fun c => l.foldl (fun c e => c.wg e.1 e.2) { c with run := .ready, svec := 64, supervisor := true }) with cur := 30720 }
def at16 (ws : List Nat) : State := on0 (fun t => { t with pool := Mem.write t.pool 16 (bytes ws) }) w0

theorem wit_DecodeOfEncode : WellFormed (.add (abc 5 3 7)) = true ∧ (instrCode (.add (abc 5 3 7))).isSome = true := by decide +kernel
theorem wit_FetchReadsTheUnitAtPc : let s := at16 [0xC000];
    instrCode (.done u0) = some (0, 0x30, u0) ∧ WellFormed (.done u0) = true ∧ (∀ r, (opEntry 0 0x30).row u0 = some r → r.check s.me.nacc u0 = none) ∧
    setsReadOnly s.cx.supervisor (.done u0) = false ∧ s.cx.pc.toNat % 2 = 0 ∧ s.cx.pc.toNat + 2 * u0.words ≤ s.me.blk.lr.xb.toNat ∧
    Mem.bytes s.me.pool s.cx.pc.toNat (2 * u0.words) = bytesOfWords (encode (.done u0)) :=
  ⟨by decide, by decide, by intro r h; cases h; decide +kernel, by decide +kernel, by decide +kernel, by decide +kernel, by decide +kernel⟩
theorem wit_StepRunsTheChosenEvent : let s := { w0 with sched := [.event .helhalHeartbeat {}] };
    s.sched = .event .helhalHeartbeat {} :: [] ∧ Instr.isEvent .helhalHeartbeat = true ∧ Sound s ∧ ∃ t, exec .helhalHeartbeat { s with sched := [], arg := {} } = .next t :=
  ⟨rfl, by decide, by unfold Sound; decide +kernel, _, rfl⟩
theorem wit_NoStepIsRefused : Instr.isEvent .moduleReset = true := by decide
theorem wit_ResetValues : 30719 < 30720 ∧ (1 : BitVec 3) ≠ 0 := by decide
theorem wit_ScalarResults : (∀ gs, Free w0 u0 gs []) ∧ (let u := { u0 with a := 1, b := 1 }; Free w0 u [1] [] ∧ 1 ≤ u.ik.toNat ∧ u.ik.toNat ≤ 64) ∧
    (let u := { abc 1 0 2 with nxi := 1, xi := 4 }; Free w0 u [1, 2] [] ∧ u.ik.toNat = 64) ∧
    (let u := { abc 1 2 60 with nxi := 1, xi := 3 }; Free w0 u [1, 2] [] ∧ u.c.toNat + (u.xbits 5 0 + 1) ≤ 64) :=
  ⟨fun gs => free_w0 gs [], by repeat' first | decide +kernel | constructor⟩
theorem wit_DivideResults : (∀ gs, Free w0 u0 gs []) ∧ w0.enabled uOff = false ∧ wOut.enabled (abc 4 1 2) = true ∧ wOut.cx.blocking [4, 1, 2] [] ≠ [] ∧
    wOut.cx.blocking [4, 2] [] ≠ [] :=
  ⟨fun gs => free_w0 gs [], by repeat' first | decide +kernel | constructor⟩
theorem wit_TransfersLoopsAndBranches : (∀ gs, Free w0 u0 gs []) ∧ (let s := regs [(1, 0xFFFFFFFFFFFFFFFF), (2, 1), (3, 2)];
    Free s { u0 with a := 1, b := 1 } [1, 1] [] ∧ Free s { u0 with a := 1, b := 2 } [1, 2] [] ∧ Free s { u0 with a := 2, b := 1 } [2, 1] [] ∧
    s.cx.rg 1 ≠ s.cx.rg 2 ∧ s.cx.rg 1 = s.cx.rg 1 ∧ (s.cx.rg 1).toInt < (s.cx.rg 2).toInt ∧ (s.cx.rg 2).toInt ≥ (s.cx.rg 1).toInt ∧
    (s.cx.rg 2).toNat < (s.cx.rg 1).toNat ∧ (s.cx.rg 1).toNat ≥ (s.cx.rg 2).toNat ∧ s.cx.rg 3 - 1 = s.cx.rg 2 ∧ s.cx.rg 3 - 1 ≠ s.cx.rg 1) := by
  refine ⟨fun gs => free_w0 gs [], ?_⟩
  repeat' first | decide +kernel | constructor
theorem wit_TaskEndAndPark : (∀ gs, Free w0 u0 gs []) ∧ (let s := cx0 (fun c => { c with ups := 0x201 }) w0; Free s u0 [0] [] ∧ s.cx.ans ≠ 0) ∧
    (w0.cx.ans = 0 ∧ w0.cx.rg 0 = 0) ∧
    (let s := { w0 with clk := { w0.clk with now := 164 * 2 ^ 32 } };
      Free s { u0 with a := 1 } [1] [] ∧ s.cx.ans = 0 ∧ s.cx.rg 1 ≠ 0 ∧ s.logs s.cur = false ∧ s.me.vol.replay = none ∧ (s.cx.rg 1).toNat ≤ (s.timeAt s.cur).toNat) ∧
    (let s := { w0 with clk := { w0.clk with now := 159 * 2 ^ 32 } };
      Free s { u0 with a := 1 } [1] [] ∧ s.cx.ans = 0 ∧ s.cx.rg 1 ≠ 0 ∧ s.logs s.cur = false ∧ s.me.vol.replay = none ∧ (s.timeAt s.cur).toNat < (s.cx.rg 1).toNat) :=
  ⟨fun gs => free_w0 gs [], by repeat' first | decide +kernel | (apply timeAt_late) | (apply timeAt_early) | constructor⟩
theorem wit_TrapEntersItsHandler : CanTrap w0 ∧ Free w0 u0 [] [] := by repeat' first | decide +kernel | constructor
theorem wit_FailedFetchesAndFatalTraps : CanTrap w0 ∧
    (let s := lr0 (fun r => { r with upv := 66 <<< 32 }) w0; s.cur < 30720 ∧ s.cx.nest = false ∧ fld s.me.blk.lr.upv 52 32 ≠ 0) ∧
    (let s := lr0 (fun r => { r with gang := some 4 }) (cx0 (fun c => { c with trc := 512 }) w0);
      s.cur < 30720 ∧ (s.cx.nest = true ∨ s.me.blk.lr.trv = 0) ∧ s.me.blk.lr.gang = some 4) ∧
    (let s := lr0 (fun r => { r with gang := some 4, trv := 0 }) w0; s.cur < 30720 ∧ (s.cx.nest = true ∨ s.me.blk.lr.trv = 0) ∧ s.me.blk.lr.gang = some 4) ∧
    30720 ≤ (tsc []).cur ∧ (tsc []).cx.svec ≠ 0 := by repeat' first | decide +kernel | constructor
theorem wit_ReturnsFromHandlers : (let s := cx0 (fun c => { c with trc := 512 }) w0; Free s u0 [0] [] ∧ s.cx.nest = true) ∧
    (let s := cx0 (fun c => { c with ups := 1 }) w0; Free s u0 [0] [] ∧ s.cx.nest = false ∧ s.cx.upCause ≠ 0) ∧
    (Free w0 u0 [0] [] ∧ CanTrap w0 ∧ w0.cx.upCause = 0) ∧ (wSup.cx.supervisor = true ∧ Free wSup u0 [] []) ∧ (CanTrap w0 ∧ w0.cx.supervisor = false) := by
  repeat' first | decide +kernel | constructor
def xi1 (n : Nat) : VUnit := { u0 with a := 5, b := 1, nxi := 1, xi := BitVec.ofNat 30 n }
theorem wit_UserModeIsPrivilegedTrap : CanTrap w0 ∧ w0.cx.supervisor = false ∧ 0x100 ≤ (xi1 0x100).x ∧ (xi1 0x106).x ≤ 0x106 := by
  repeat' first | decide +kernel | constructor
theorem wit_GetsReadsEveryRegister : (∀ n : Fin 0x107, (xi1 n.val).x = n.val ∧ wSup.enabled (xi1 n.val) = true) ∧ wSup.cx.supervisor = true ∧
    (∀ n, wSup.cx.blocking [(xi1 n).a] [] = []) := ⟨by decide +kernel, by decide +kernel, fun _ => rfl⟩
theorem wit_SetsWritesEveryRegister : (let s := regs [(1, 128)]; Free s (xi1 0) [1] [] ∧ fld (s.cx.rg 1) 20 0 % 128 = 0 ∧ fld (s.cx.rg 1) 20 0 ≤ s.me.lim) ∧
    (let s := regs [(1, 126 + 126 * 2 ^ 32)]; Free s (xi1 0x18) [1] [] ∧ Claims.Entry s (fld (s.cx.rg 1) 20 0) ∧ Claims.Entry s (fld (s.cx.rg 1) 52 32)) ∧
    (Free wSup (xi1 0x106) [1] [] ∧ wSup.cx.supervisor = true ∧ wSup.cur < 30720) ∧
    (let s := tsc [(1, 9)]; Free s (xi1 0x106) [1] [] ∧ s.cx.supervisor = true ∧ 30720 ≤ s.cur ∧ s.cur < 32768) ∧
    (let s := regs [(1, 129)]; CanTrap s ∧ Free s (xi1 0) [1] [] ∧ ¬ (fld (s.cx.rg 1) 20 0 % 128 = 0 ∧ fld (s.cx.rg 1) 20 0 ≤ s.me.lim) ∧ ¬ Claims.Entry s (fld (s.cx.rg 1) 20 0)) ∧
    (let s := regs [(1, 128 * 2 ^ 32)]; CanTrap s ∧ Free s (xi1 0x18) [1] [] ∧ ¬ (Claims.Entry s (fld (s.cx.rg 1) 20 0) ∧ Claims.Entry s (fld (s.cx.rg 1) 52 32))) := by
  refine ⟨?_, ?_, ?_, ?_, ⟨by repeat' first | decide +kernel | constructor, by constructor <;> decide +kernel, by decide +kernel, fun h => ?_⟩,
    by repeat' first | decide +kernel | constructor, by constructor <;> decide +kernel, fun h => ?_⟩
  all_goals first | exact absurd h.1 (by decide +kernel) | exact absurd h.2.2 (by decide +kernel) | (repeat' first | decide +kernel | constructor)
theorem wit_SkippedAndHeldUnits : w0.enabled uOff = false ∧ wOut.enabled (abc 4 1 2) = true ∧ wOut.cx.blocking [4, 1] [] ≠ [] := by decide +kernel

/-! ### Pages 1 and 3 -/

/-- Device and system pages of the first gigabytes in the load and store TLB. -/
def pageD : Word × Word := (BitVec.ofNat 64 (2 * 2 ^ 62), BitVec.ofNat 64 (2 ^ 63 + 2 ^ 61 + 2 ^ 60 + 2 ^ 59))
def pageS : Word × Word := (BitVec.ofNat 64 (3 * 2 ^ 62), BitVec.ofNat 64 (2 ^ 63 + 2 ^ 61 + 2 ^ 60 + 2 ^ 59 + 4 * 2 ^ 20))
def paged : State := on0 (fun t => { t with vol := { t.vol with tlbL := { ents := [(0, pageD), (1, pageS)], order := [0, 1], ptr := 0, pins := [] } } }) w0
def gs3 (g1 g2 g3 : Word) (s : State) : State := cx0 (fun c => ((c.wg 1 g1).wg 2 g2).wg 3 g3) s
def devA : Word := BitVec.ofNat 64 (2 * 2 ^ 62 + 0x100)
def sysA : Word := BitVec.ofNat 64 (3 * 2 ^ 62 + 0x200)
def tilA : Word := BitVec.ofNat 64 (2 ^ 62 + 2 ^ 32 + 0x400)
/-- Pattern M without qualifiers, and with p1, in which lane 0 alone is set. -/
def mu : VUnit := xu 3 1 0 0 false
def mv : VUnit := { xu 3 1 2 0 true with xq := some { pred := 1, neg := false, hi := 5, lo := 0 } }
def lane0 (s : State) : State := cx0 (fun c => c.wp 1 1) s

theorem wit_ElementwiseResults : ∀ vs, LanesFree w0 [u0.b] vs := fun _ => rfl
theorem wit_ElementArithmetic : (3 ≤ 3 ∧ 7 < 8) ∧ (2 < 3 ∧ 3 < 4) ∧ ((fmtOf 0).val 0x7FC00000).isNan = true ∧
    ((fmtOf 0).val 0x80000001).finite = true ∧ 0x80000001 < 2 ^ widthOf 0 ∧ 0x80000001 % 2 ^ (widthOf 0 - 1) ≠ 0 := by decide +kernel
theorem wit_VectorMovesAndReductions : (∀ gs vs, LanesFree w0 gs vs) ∧ w0.lane mv ((w0.cx.rg mv.c).toNat % (1024 / widthOf mv.ety) * widthOf mv.ety / 32) = false ∧
    (lane0 (regs [(2, 32)])).lane mv (((lane0 (regs [(2, 32)])).cx.rg mv.c).toNat % (1024 / widthOf mv.ety) * widthOf mv.ety / 32) = true :=
  ⟨lanes_w0, by decide +kernel, by decide +kernel⟩
theorem wit_PredicateResults : ∀ gs vs, LanesFree w0 gs vs := lanes_w0
theorem wit_BlockConversions : (∀ gs vs, LanesFree w0 gs vs) ∧
    32 * (xu 1 2 3 1 true).xbits 1 0 + 32 ≤ 1024 / widthOf ({ xu 1 2 3 1 true with xq := some { pred := 0, neg := false, hi := 0, lo := 4 } } : VUnit).ety ∧
    (xu 1 8 3 4 true).xbits 2 0 ≤ 4 := ⟨lanes_w0, by decide, by decide⟩

/-- A stream register's word. -/
def strm (kind cls esz cnt str pos : Nat) : BitVec 128 :=
  BitVec.ofNat 128 (kind * 2 ^ 126 + cls * 2 ^ 123 + esz * 2 ^ 120 + cnt * 2 ^ 64 + str * 2 ^ 32 + pos)
def withS (x : BitVec 128) (s : State) : State := cx0 (fun c => c.ws 1 x) s
def bindG (x : BitVec 128) : State := regs [(1, x.extractLsb' 0 64), (2, x.extractLsb' 64 64)]
def uS : VUnit := { xu 3 1 2 0 true with xq := some { pred := 1, neg := false, hi := 5, lo := 0 } }
def msg1 : Msg := { cls := 3, long := true, payload := List.replicate 128 7, src := 1, tcx := 15, spawn := false, anum := 4, seq := 0, ctx := 0, tsn := 0 }
theorem wit_StreamUnits : (∀ gs vs, LanesFree w0 gs vs) ∧
    (let s := bindG (strm 1 0 0 4 4 160); LanesFree s [1, 2] [] ∧ bindOk (s.cx.rg 2 ++ s.cx.rg 1) = true) ∧
    (let s := bindG (strm 1 0 0 4 4 161); CanTrap s ∧ LanesFree s [1, 2] [] ∧ bindOk (s.cx.rg 2 ++ s.cx.rg 1) = false) ∧
    (let x := (withS (strm 1 0 0 4 4 160) w0).cx.rs 1; fld x 127 126 = 1) ∧ (let x := (withS (strm 2 0 0 4 4 160) w0).cx.rs 1; fld x 127 126 = 2) ∧
    (CanTrap w0 ∧ fld (w0.cx.rs 1) 127 126 = 0) ∧ (CanTrap (withS (strm 3 2 3 4 0 0) w0) ∧ fld ((withS (strm 3 2 3 4 0 0) w0).cx.rs 1) 127 126 = 3) ∧
    (let s := lane0 (withS (strm 1 0 0 0 4 160) w0); CanTrap s ∧ LanesFree s [] [3] ∧ s.lane uS 0 = true ∧ fld (s.cx.rs 1) 95 64 = 0) ∧
    (let s := lane0 (withS (strm 3 3 3 1 0 0) w0); LanesFree s [] [3] ∧ fld (s.cx.rs 1) 127 126 = 3 ∧ fld (s.cx.rs 1) 95 64 ≠ 0 ∧ s.lane uS 0 = true ∧
      s.me.eligible s.me.blk.hold (fld (s.cx.rs 1) 125 123) = none) ∧
    (let s := on0 (fun t => t.modVol fun v => { v with rq := [msg1] }) (lane0 (withS (strm 3 3 3 1 0 0) w0));
      fld (s.cx.rs 1) 127 126 = 3 ∧ fld (s.cx.rs 1) 95 64 ≠ 0 ∧ s.lane uS 0 = true ∧
      s.me.eligible s.me.blk.hold (fld (s.cx.rs 1) 125 123) = some (.queue 0) ∧ s.me.vol.rq[0]? = some msg1) ∧ (∀ e, e < 128 → w0.lane uS (e / 4) = false) := by
  refine ⟨lanes_w0, ?_⟩
  repeat' first | decide +kernel | constructor
theorem wit_StreamReadAndWrite : ∀ w : Bool, let s := lane0 (withS (strm (if w then 2 else 1) 0 0 1 4 160) w0);
    LanesFree s [] [3] ∧ NotHeld s ∧ RelFree s s.cx.relNext ∧ fld (s.cx.rs 1) 127 126 = (if w then 2 else 1) ∧ fld (s.cx.rs 1) 95 64 ≠ 0 ∧
    StreamOk s uS (s.cx.rs 1) w ∧ ∃ e, e < 128 / strSize (s.cx.rs 1) ∧ s.strEl uS (strSize (s.cx.rs 1)) e = true := by
  intro w
  refine ⟨rfl, rfl, relFree_none (by cases w <;> decide +kernel), by cases w <;> decide +kernel, by cases w <;> decide +kernel, fun e he _ => ?_, 0, by cases w <;> decide +kernel, by cases w <;> decide +kernel⟩
  have h0 : e = 0 := by
    have : strTake ((lane0 (withS (strm (if w then 2 else 1) 0 0 1 4 160) w0)).cx.rs 1) = 1 := by cases w <;> decide +kernel
    omega
  subst h0
  exact ⟨160, by cases w <;> decide +kernel, by cases w <;> decide +kernel, by cases w <;> decide +kernel, by cases w <;> decide +kernel, by cases w <;> decide +kernel⟩

/-! #### Loads, stores, atomics -/

theorem place160 (n : Nat) (w : Bool) (h : n = 1 ∨ n = 2 ∨ n = 4 ∨ n = 8) : OwnPlace w0 (w0.addrM mu) n w := by
  rcases h with rfl | rfl | rfl | rfl <;> cases w <;> constructor <;> first | decide +kernel | (constructor <;> decide +kernel)
/-- The last doubleword below the partition areas. -/
def wEdge : State := regs [(1, BitVec.ofNat 64 (w0.me.abase - 8))]
theorem edge_place (w : Bool) : OwnPlace wEdge (wEdge.addrM mu) 8 w := by
  cases w <;> constructor <;> first | decide +kernel | (constructor <;> decide +kernel)
theorem wit_LoadsFromOwnPool : Free w0 mu (mu.a :: regsM mu) [] ∧ NotHeld w0 ∧ LoadRel w0 mu ∧ (∀ n, n = 1 ∨ n = 2 ∨ n = 4 ∨ n = 8 → OwnPlace w0 (w0.addrM mu) n false) ∧
    (Free wEdge mu (mu.a :: regsM mu) [] ∧ OwnPlace wEdge (wEdge.addrM mu) 8 false) ∧
    (let s := lane0 (regs [(2, 0)]);
      s.enEls mv 4 ≠ [] ∧ (∀ e ∈ s.enEls mv 4, OwnPlace s (s.addrM { mv with xr := false } + BitVec.ofNat 64 (4 * e)) 4 false) ∧
      (∀ e ∈ s.enEls mv (elSize mv), OwnPlace s (addrStrided mv s e) (elSize mv) false) ∧
      ∀ e ∈ s.enEls mv (elSize mv), OwnPlace s (addrIndexed mv s e) (elSize mv) false) ∧ w0.enEls mv 4 = [] := by
  refine ⟨⟨by decide +kernel, rfl⟩, rfl, fun h => absurd h (by decide), fun n h => place160 n false h, ⟨⟨by decide +kernel, rfl⟩, edge_place false⟩,
    ⟨by decide +kernel, all_single (a := 0) (by decide +kernel) ?_, all_single (a := 0) (by decide +kernel) ?_, all_single (a := 0) (by decide +kernel) ?_⟩, by decide +kernel⟩
  all_goals constructor <;> first | decide +kernel | (constructor <;> decide +kernel)
theorem wit_StoresToOwnPool : Free w0 mu (mu.a :: regsM mu) [] ∧ NotHeld w0 ∧ RelFree w0 (w0.relScope mu) ∧
    (∀ n, n = 1 ∨ n = 2 ∨ n = 4 ∨ n = 8 → OwnPlace w0 (w0.addrM mu) n true) ∧ OwnPlace wEdge (wEdge.addrM mu) 8 true ∧
    (let s := lane0 (regs [(2, 0)]);
      RelFree s (s.relScope mv) ∧ s.enEls mv 4 ≠ [] ∧ (∀ e ∈ s.enEls mv 4, OwnPlace s (s.addrM { mv with xr := false } + BitVec.ofNat 64 (4 * e)) 4 true) ∧
      (∀ e ∈ s.enEls mv (elSize mv), OwnPlace s (addrStrided mv s e) (elSize mv) true) ∧
      ∀ e ∈ s.enEls mv (elSize mv), OwnPlace s (addrIndexed mv s e) (elSize mv) true) ∧ w0.enEls mv 4 = [] := by
  refine ⟨⟨by decide +kernel, rfl⟩, rfl, relFree_none (by decide +kernel), fun n h => place160 n true h, edge_place true,
    ⟨relFree_none (by decide +kernel), by decide +kernel, all_single (a := 0) (by decide +kernel) ?_, all_single (a := 0) (by decide +kernel) ?_, all_single (a := 0) (by decide +kernel) ?_⟩, by decide +kernel⟩
  all_goals constructor <;> first | decide +kernel | (constructor <;> decide +kernel)
/-- A state whose g1 is an address that a home slice, a CXL port or another tile owns, and the place of it. -/
def far (k : Nat) : State := gs3 (match k with | 0 => devA | 1 => sysA | _ => tilA) 7 9 paged
def farAt (k : Nat) : Owner × Nat × Option Nat := match k with | 0 => (.slice 0, 0x100, some 0) | 1 => (.port 0, 0x400200, some 1) | _ => (.pool 1, 0x400, none)
theorem wit_FarLoadsAndStores : ∀ k : Fin 3, let s := far k; let f := farAt k;
    Free s mu (mu.a :: regsM mu) [] ∧ NotHeld s ∧ (∀ n ∈ [1, 2, 4, 8], s.find (readAcc n) (s.addrM mu) = .at (.far f.1 f.2.1 false) f.2.2) ∧
    (∀ n ∈ [1, 2, 4, 8], s.find (writeAcc n) (s.addrM mu) = .at (.far f.1 f.2.1 false) f.2.2) ∧ s.me.freeJournal.isSome = true ∧ CanSend s f.1 ∧ RoomFor s f.1 := by
  have h : ∀ k : Fin 3, (far k).me.outKind .pool < 32 ∧ (far k).me.outKind .dev < 8 := by decide +kernel
  refine fun k => ⟨⟨?_, ?_⟩, ?_, ?_, ?_, ?_, ?_, ?_⟩
  case refine_8 => unfold RoomFor; split; exact (h k).1; exact (h k).2
  case refine_7 => revert k; unfold CanSend; decide +kernel
  all_goals (revert k; try unfold NotHeld)
  all_goals decide +kernel
/-- g1 is an address at home slice 0, which the tile has a channel to, and lane 0 is enabled. -/
def farV : State := on0 (fun t => t.modNi fun n => { n with send := [{ peer := ownerCode (.slice 0), cls := 6, next := 0, una := 0 }] }) (lane0 (gs3 devA 0 0 paged))
def farP : Place := .far (.slice 0) 0x100 false
theorem wit_FarVectors : (∀ gs vs, LanesFree farV gs vs) ∧ NotHeld farV ∧ LoadRel farV mv ∧ RelFree farV (farV.relScope mv) ∧ farV.me.outKind .dev < 8 ∧ farV.me.outKind .pool < 32 ∧
    farV.me.freeJournal.isSome = true ∧ ownersOf [(farP, 0)] = [.slice 0] ∧ ChannelsTo farV [(farP, 0)] ∧
    (∀ acc ∈ [readAcc, writeAcc], farV.findAll (acc 4) ((farV.enEls mv 4).map (fun e => farV.addrM { mv with xr := false } + BitVec.ofNat 64 (4 * e))) = .all [farP] [0] ∧
      farV.findAll (acc (elSize mv)) ((farV.enEls mv (elSize mv)).map (addrStrided mv farV)) = .all [farP] [0] ∧
      farV.findAll (acc (elSize mv)) ((farV.enEls mv (elSize mv)).map (addrIndexed mv farV)) = .all [farP] [0]) := by
  refine ⟨fun _ _ => rfl, rfl, fun h => absurd h (by decide), relFree_none (by decide +kernel), by decide +kernel, by decide +kernel, by decide +kernel, by decide +kernel, ?_, by decide +kernel⟩
  unfold ChannelsTo; decide +kernel
theorem wit_VectorAndAtomicFaults : (let s := lane0 (regs [(1, 129), (2, 0)]); CanTrap s ∧ (∀ gs vs, LanesFree s gs vs) ∧ NotHeld s ∧ 0 ∈ s.enEls mv 4 ∧ (∀ k ∈ s.enEls mv 4, ¬ k < 0) ∧
      s.classify (s.addrM { mv with xr := false }) 4 = some (0, s.cur) ∧ (s.addrM { mv with xr := false }).toNat % 4 ≠ 0) ∧
    (∀ b : Bool, let u := { mu with k := b }; let s := regs [(1, 129)]; Free s u ([u.a, u.a + 1] ++ regsM u) [] ∧ NotHeld s ∧ (s.addrM u).toNat % atomBytes u ≠ 0) := by
  refine ⟨⟨?_, fun _ _ => rfl, ?_⟩, fun b => ⟨⟨?_, ?_⟩, ?_⟩⟩
  case refine_3 | refine_4 | refine_5 => cases b <;> repeat' first | decide +kernel | constructor
  all_goals repeat' first | decide +kernel | constructor
theorem wit_AtomicUnits : (∀ b : Bool, Free w0 { mu with k := b } ([mu.a, mu.a + 1] ++ regsM mu) [] ∧ RelFree w0 (w0.relScope { mu with k := b }) ∧
      OwnPlace w0 (w0.addrM { mu with k := b }) (atomBytes { mu with k := b }) true) ∧ NotHeld w0 ∧
    (∀ k : Fin 3, ∀ b, (far k).find (atomAcc (atomBytes { mu with k := b })) ((far k).addrM mu) = .at (.far (farAt k).1 (farAt k).2.1 false) (farAt k).2.2 ∧
      (far k).me.outKind .dev < 8) ∧ (far 0).me.blk.lr.ord = false ∧
    ∀ b : Bool, (far 0).find { writeAcc (if b then 4 else 8) with spaces := 4 } ((far 0).addrM mu) = .at (.far (.slice 0) 0x100 false) (some 0) := by
  refine ⟨fun b => ⟨⟨by cases b <;> decide +kernel, rfl⟩, relFree_none (by cases b <;> decide +kernel), ?_⟩, rfl, by decide +kernel, by decide +kernel, by decide +kernel⟩
  cases b
  · exact place160 8 true (by simp)
  · exact place160 4 true (by simp)
/-- Addresses that break one rule of R279 each, with the checks before it passed. -/
theorem wit_OwnFaults : Free (regs [(1, 129)]) mu (mu.a :: regsM mu) [] ∧ Free (regs [(1, 120)]) mu (mu.a :: regsM mu) [] ∧ Free (regs [(1, 1568768)]) mu (mu.a :: regsM mu) [] ∧ CanTrap (regs [(1, 1)]) ∧
    (let s := regs [(1, 129)]; s.classify (s.addrM mu) 2 = some (0, s.cur) ∧ (s.addrM mu).toNat % 2 ≠ 0) ∧
    (let s := regs [(1, 120)]; s.classify (s.addrM mu) 8 = some (0, s.cur) ∧ (s.addrM mu).toNat % 8 = 0 ∧ fld (s.addrM mu) 20 0 < s.me.blk.lr.xb.toNat) ∧
    (let s := regs [(1, 1568768)]; s.classify (s.addrM mu) 8 = some (0, s.cur) ∧ (s.addrM mu).toNat % 8 = 0 ∧
      s.me.blk.lr.xb.toNat ≤ fld (s.addrM mu) 20 0 ∧ s.me.abase < fld (s.addrM mu) 20 0 + 8) ∧
    (let s := on0 (fun t => t.lock true 3 160 32) w0; s.classify (s.addrM mu) 8 = some (0, s.cur) ∧ (s.addrM mu).toNat % 8 = 0 ∧
      s.me.blk.lr.xb.toNat ≤ fld (s.addrM mu) 20 0 ∧ fld (s.addrM mu) 20 0 + 8 ≤ s.me.abase ∧ s.me.lockHit false (fld (s.addrM mu) 20 0) 8 = true) := by
  repeat' first | decide +kernel | constructor

/-! ### Fences, the array, messages, copies, queues -/

def arr0 (f : ArrayPart → ArrayPart) (s : State) : State := on0 (fun t => t.modArr f) s
def accAll (i : Bool) : Vector AccSt 8 := Vector.replicate 8 { vld := true, drt := false, ifl := i, own := 0 }
/-- The request stands, every accumulator is owned by context 0, both slots are loaded. -/
def wArr : State := arr0 (fun a => { a with req := true, accs := accAll false, slots := Vector.replicate 2 { st := 1, fmt := 0, off := 256, img := [] } }) (regs [(1, 256), (2, 4)])
def lease (h : Option Nat) (s : State) : State := { s with clusters := [(0, { Cluster.reset with holder := h })] }
def qu (o : BitVec 3) : VUnit := { u0 with xp := true, xq := some { pred := 0, neg := false, hi := 5, lo := o } }
def jr : JEntry := { idx := 0, id := 0, ctx := 0, tsn := 0, parts := 1, out := none, refused := none }
def later (s : State) : State := { s with nextId := 40 }

theorem wit_AccessAndArrayTraps : (CanTrap (regs [(1, 256)]) ∧ (regs [(1, 256)]).me.blk.arr.req = false ∧ Free (regs [(1, 256)]) { u0 with b := 1 } [1] [] ∧ NotHeld (regs [(1, 256)])) ∧
    (let s := arr0 (fun a => { a with req := true }) w0; CanTrap s ∧ s.me.blk.arr.req = true ∧ Free s { u0 with b := 1 } [1] [] ∧ NotHeld s ∧ ¬ OwnsAcc s 0) ∧
    (let s := arr0 (fun a => { a with slots := Vector.replicate 2 WSlot.empty }) wArr;
      CanTrap s ∧ s.me.blk.arr.req = true ∧ Free s { u0 with b := 1 } [1] [] ∧ OwnsAcc s 0 ∧ s.me.blk.arr.slotEmpty 0 = true) := by
  refine ⟨?_, ⟨?_, ?_, ?_, ?_, fun h => absurd h.1 (by decide +kernel)⟩, ?_⟩
  all_goals repeat' first | decide +kernel | constructor
theorem wit_FencesAndTheMonitor : (Free w0 (qu 2) [] [] ∧ (qu 2).ord = 2 ∧ ∀ e ∈ w0.rim.grad, ∀ p ∈ e.2.popped, p.1 ≠ w0.cur) ∧
    (Free w0 (qu 1) [] [] ∧ (qu 1).ord = 1 ∧ w0.cx.outs.all (fun o => o.kind == .copy || o.kind == .heron || o.kind == .other) = true ∧
      Free wOut (qu 1) [] [] ∧ wOut.cx.outs.all (fun o => o.kind == .copy || o.kind == .heron || o.kind == .other) = false) ∧
    (let s := later (on0 (fun t => t.modNi fun n => { n with journal := [jr] }) w0);
      Free s (qu 3) [] [] ∧ (qu 3).ord = 3 ∧ w0.performed w0.cur w0.me.blk.hold w0.nextId (w0.widened (qu 3).scope) = true ∧
      s.performed s.cur s.me.blk.hold s.nextId (s.widened (qu 3).scope) = false ∧ w0.me.blk.ni.journal = [] ∧ s.me.blk.ni.journal ≠ []) ∧
    (w0.cx.ocnt = 0 ∧ (cx0 (fun c => { c with ocnt := 1 }) w0).cx.ocnt ≠ 0) ∧
    (let s := regs [(1, 128)]; Free s mu (regsM mu) [] ∧ s.classify (s.addrM mu) 1 = some (0, s.cur) ∧
      s.me.blk.lr.xb.toNat ≤ fld (s.addrM mu) 20 0 ∧ fld (s.addrM mu) 20 0 < s.me.abase) ∧
    (w0.cx.marm = false ∧ (let s := cx0 (fun c => { c with marm := true }) w0; s.cx.marm = true ∧ s.cx.mchg = false)) ∧
    (let s := gs3 devA 0 0 w0; let r : Access := { size := 1, align := 1, rd := false, wr := false, lock := none, spaces := 0xC };
      Free s mu (regsM mu) [] ∧ w0.find r (w0.addrM mu) ≠ .miss ∧ s.find r (s.addrM mu) = .miss ∧
      s.missesOf s.cur < 4 ∧ (s.cluster (homeCluster s.cur)).reqs.length < 64) ∧
    (let t := (w0.me.modCtx 1 fun c => { c with run := .waiting (.monw 4), marm := true, mln := 2 });
      (t.ctx 1).run = .waiting (.monw 4) ∧ (t.ctx 1).marm = true ∧ 383 < 2 ^ 21 ∧ 383 / 128 = (t.ctx 1).mln.toNat ∧ 384 / 128 ≠ (t.ctx 1).mln.toNat) := by
  repeat' first | decide +kernel | constructor
theorem wit_ArrayCommandsAreAccepted : (let u := { u0 with xp := true, b := 2 }; let x := wArr.cx.rg u.b;
      Free wArr u [u.b] [] ∧ fld x 63 5 = 0 ∧ fld x 3 3 = 0 ∧ fld x 2 0 < 5 ∧ CanCommand wArr (.mfmt (fld x 4 4 == 1) (BitVec.ofNat 3 (fld x 2 0)))) ∧
    (let u := { u0 with xp := true, b := 1 }; let a := wArr.imageAddr u;
      Free wArr u [u.b] [] ∧ NotHeld wArr ∧ ImageAt wArr a (planeSize wArr.me.blk.arr.wfNext.toNat) false ∧ wArr.me.freeLock.isSome = true ∧
      CanCommand wArr (.mldw (u.a.toNat % 2 == 1) (fld a 20 0) wArr.me.blk.arr.wfNext) ∧ OwnsAcc wArr (u.a.toNat % 8) ∧
      wArr.me.blk.arr.slotEmpty (u.a.toNat / 8 % 2) = false ∧ ImageAt wArr a (actSize wArr.me.blk.arr.afNext) false ∧
      (∀ k, CanCommand wArr (.mma (u.a.toNat % 8) (fld a 20 0) (u.a.toNat / 8 % 2 == 1) wArr.me.blk.arr.afNext k)) ∧
      (wArr.me.blk.arr.acc 0).ifl = false ∧ CanCommand wArr (.mzero 0) ∧ OwnsAcc wArr 1 ∧ CanCommand wArr (.macc 0 1) ∧
      CanCommand wArr (.mscl 0 ((wArr.cx.rg u.b).setWidth 32))) := by
  refine ⟨?_, ?_, ?_, ?_, ?_, ?_, ?_, ?_, ?_, fun k => ?_, ?_⟩
  case refine_10 => cases k <;> constructor <;> decide +kernel
  all_goals repeat' first | decide +kernel | constructor
theorem wit_LeaseRequestAndRelease : (let s := lease none w0; s.cur < 30720 ∧ Free s u0 [0] [] ∧ (s.cluster (clusterOf s.cur)).holder = none) ∧
    (let s := lease (some 15) w0; Free s u0 [0] [] ∧ (s.cluster (clusterOf s.cur)).holder = some 15) ∧ w0.me.blk.arr.req = false ∧
    (let s := lease (some 0) wArr; Free s u0 [] [] ∧ s.me.blk.arr.req = true ∧ s.me.blk.arr.queue = [] ∧ s.holds s.cur = true) ∧
    (let s := arr0 (fun a => { a with queue := [{ seq := 1, ctx := 0, tsn := 0, cmd := .mzero 0, lock := none, started := false, held := [], wt := WSlot.empty }] }) wArr;
      Free s u0 [] [] ∧ s.me.blk.arr.req = true ∧ s.me.blk.arr.queue ≠ []) := by repeat' first | decide +kernel | constructor
theorem wit_AccumulatorMovesAndQueries : (LanesFree wArr [0] [0] ∧ wArr.enabled u0 = true ∧ OwnsAcc wArr 7 ∧ (wArr.me.blk.arr.acc 7).ifl = false) ∧
    (let u := { u0 with xp := true, b := 1 };
      Free wArr u [u.b] [] ∧ NotHeld wArr ∧ RelFree wArr wArr.cx.relNext ∧ ImageAt wArr (wArr.imageAddr u) (accSize u) true ∧ ImageAt wArr (wArr.imageAddr u) (accSize u) false) ∧
    (let s := lr0 (fun r => { r with pres := 8 }) wArr; Free s u0 [] [] ∧ s.me.blk.lr.pres.getLsbD 3 = true ∧ OwnsAcc s 0 ∧ OwnsAcc s 1 ∧ s.me.blk.arr.mx = none) ∧
    (Unlogged w0 ∧ u0.b = 0 ∧ (abc 1 2 0).b ≠ 0) ∧
    (let m := ({ u0 with b := 8, nxi := 1 } : VUnit).ik.toNat % 256; (m = 0 → w0.me.blk.arr.queue = []) ∧ ∀ k, k < 8 → m.testBit k = true → (wArr.me.blk.arr.acc k).ifl = false) := by
  refine ⟨?_, ⟨?_, ?_, relFree_none (by decide +kernel), ?_⟩, ?_⟩
  all_goals repeat' first | decide +kernel | constructor

def idle0 : Pkt := { id := 0, src := .pool 0, dst := .pool 1, cls := 2, seq := 0, body := .popAck 0, stage := .queued, pcn := 0, mask := 0, bytes := 0, rel := none }
def full (s : State) : State := on0 (fun t => t.modNi fun n => { n with rtx := List.replicate 32 idle0 }) s
/-- Slot `n` of the exchange table, in an ordered launch. -/
def slot (n nxs : Nat) (e : Nat) (xph : Bool) : State := on0 (fun t => { (t.modLr fun r => { r with ord := true }).modSy fun k => { k with xtb := 640, xcnt := 4, nxs := nxs, xph := xph } with
  pool := Mem.write t.pool (640 + 8 * n) (leBytes 8 e) }) w0
def goodSlot : Nat := 2 ^ 63 + 2 * 2 ^ 60 + 2 ^ 28 + 2 ^ 20 + 7 * 2 ^ 6
def us (n : Nat) : VUnit := { u0 with xp := true, a := 2, b := BitVec.ofNat 6 n }
theorem wit_MessagesAndSlotsAreSent : (let s := regs [(1, 0x0101)]; let u := xu 8 1 0 0x13 false;
      Free s u (u.b :: quadRegs u.a) [] ∧ s.me.blk.lr.ord = false ∧ (s.dest (s.cx.rg u.b)).isSome = true ∧ 32 ≤ (full s).me.blk.ni.rtx.length ∧
      ∀ c : Fin 6, MaySend s (s.cx.rg u.b) (tileNo 1 1) c.val) ∧
    (let s := regs [(1, 0x0200)]; CanTrap s ∧ s.me.blk.lr.ord = false ∧ s.dest (s.cx.rg 1) = none) ∧
    (let s := lr0 (fun r => { r with ord := true }) w0; CanTrap s ∧ s.me.blk.lr.ord = true) ∧
    (let s := slot 2 2 goodSlot false; CanTrap s ∧ Free s (us 2) [] [2] ∧ s.me.blk.lr.ord = true ∧ s.me.blk.sy.xph = false) ∧
    (let s := slot 2 1 goodSlot true; CanTrap s ∧ s.me.blk.sy.xph = true ∧ (us 2).ik.toNat ≠ s.me.blk.sy.nxs) ∧
    (let s := slot 2 2 (goodSlot + 2 ^ 62) true; CanTrap s ∧ (us 2).ik.toNat = s.me.blk.sy.nxs ∧ (s.me.slotEntry 2).getLsbD 62 = true) ∧
    (let s := slot 2 2 goodSlot true; let e := s.me.slotEntry 2;
      (us 2).ik.toNat = s.me.blk.sy.nxs ∧ e.getLsbD 63 = true ∧ e.getLsbD 62 = false ∧ fld e 5 0 = 0 ∧ fld e 35 28 = 1 ∧ fld e 27 20 = 1 ∧
      s.me.blk.lr.gxo + s.me.blk.lr.gw = 2 ∧ s.me.blk.lr.gyo + s.me.blk.lr.gh = 2 ∧ s.me.blk.ni.rtx.length < 32 ∧
      (s.number s.cur (tileNo (fld e 35 28) (fld e 27 20)) (fld e 61 60 + 2)).isSome = true) := by
  refine ⟨⟨?_, ?_, ?_, ?_, fun c => ⟨?_, ?_, ?_, ?_⟩⟩, ?_⟩
  case refine_8 => revert c; decide +kernel
  all_goals repeat' first | decide +kernel | constructor
def rqd (s : State) : State := on0 (fun t => t.modVol fun v => { v with rq := [msg1] }) s
theorem wit_MessagesAreTaken : (let u := xu 8 1 5 1 true;
      Free w0 u (u.c :: quadRegs u.a) [] ∧ recvClass u = 3 ∧ w0.me.eligible w0.me.blk.hold (recvClass u) = none ∧ (rqd w0).me.eligible (rqd w0).me.blk.hold (recvClass u) = some (.queue 0) ∧
      Free w0 u [u.c] [u.a] ∧ Free w0 u [u.b, u.c] [] ∧ NotHeld w0 ∧ RelFree (rqd w0) (rqd w0).cx.relNext ∧ (rqd w0).me.freeLock.isSome = true ∧
      ∀ n ∈ [64, 160], (rqd w0).find { size := n, align := 32, rd := false, wr := true, lock := some true, spaces := 0x1, ord := false } ((rqd w0).cx.rg u.b) = .at (.own 160) none) ∧
    eldest (w0.me.divertMatches w0.me.blk.hold 3 false) = none ∧
    (let s := on0 (fun t => let t := t.modLr fun r => { r with dvs := 2 }; { t with
          pool := Mem.write t.pool (t.slotAddr 0 1) (leBytes 8 msg1.hdr.toNat ++ List.replicate 24 0 ++ msg1.payload)
          vol := { t.vol with dix := [{ ctx := 0, slot := 1, hdr := msg1.hdr }] } }) w0;
      eldest (s.me.divertMatches s.me.blk.hold 3 false) = some (.slot 0 1) ∧ s.me.freeLock.isSome = true ∧ s.me.slotLocked (.slot 0 1) = false) := by
  refine ⟨⟨?_, ?_, ?_, ?_, ?_, ?_, ?_, relFree_none (by decide +kernel), ?_⟩, ?_⟩
  all_goals repeat' first | decide +kernel | constructor

def cop (i : Nat) : CopyOp := { idx := i, id := 100 + i, ctx := 0, tsn := 0, tok := 9, dst := 1024, src := 2048, rows := 1, len := 128, dstep := 0, sstep := 0, scope := 5, rel := false, ovl := false, lines := 0, st := 0, slot := none, tag := none }
def enP (f : EnginePart → EnginePart) (s : State) : State := on0 (fun t => { t with blk := { t.blk with en := f t.blk.en } }) s
def check (ovl : Bool) (s : State) : Option (Cause × Word) := s.copyCheck ovl ⟨s.cx.rg 1, [s.cx.rg 1], 0⟩ ⟨s.cx.rg 2, [s.cx.rg 2], 0⟩ (s.cx.rg 3).toNat
  [(lenOk (s.cx.rg 3).toNat, s.cx.rg 3)] [s.cx.rg 1, s.cx.rg 2, s.cx.rg 3]
/-- CPY2D of rows of 128 bytes, with the row count given. -/
def check2 (rows : Nat) : Option (Cause × Word) := let s := regs [(4, BitVec.ofNat 64 (rows * 2 ^ 32 + 128)), (5, BitVec.ofNat 64 (256 * 2 ^ 32 + 512)), (1, 1024), (2, 4096)]
  s.copyCheck false ⟨s.cx.rg 1, rowStarts 1024 256 rows, 256⟩ ⟨s.cx.rg 2, rowStarts 4096 512 rows, 512⟩ 128
    [(lenOk 128, 128), (decide (1 ≤ rows) && decide (rows ≤ 65535), s.cx.rg 4)] [s.cx.rg 1, s.cx.rg 2, 128, 256, 512]
theorem wit_CopiesArePosted : (let s := regs [(1, 1024), (2, 2048), (3, 128)]; let u := abc 3 1 2;
      Free s u [u.a, u.b, u.c] [] ∧ NotHeld s ∧ check false s = none ∧ s.me.blk.en.copies.length < 16 ∧ 2 ≤ s.me.freeLocks ∧
      16 ≤ (enP (fun e => { e with copies := (List.range 16).map cop }) s).me.blk.en.copies.length ∧ Unlogged s ∧
      check true (regs [(1, 0), (2, 2048), (3, 128)]) = none ∧ (check true s).isSome = true) ∧
    (CanTrap (regs [(1, 1024), (2, 2048), (3, 100)]) ∧ (check false (regs [(1, 1024), (2, 2048), (3, 100)])).isSome = true) ∧
    check2 3 = none ∧ (check2 0).isSome = true := by
  repeat' first | decide +kernel | constructor

def winS (n : Nat) (s : State) : State := on0 (fun t => t.modNi fun k => { k with win := Vector.replicate 8 (3, BitVec.ofNat 5 n) }) s
def headB : List Byte := leBytes 8 (devA.toNat - 0x100) ++ leBytes 8 (64 * 2 ^ 32 + 300) ++ leBytes 8 0x3f800000 ++ List.replicate 40 0
/-- A head of dimension 64 and 300 positions at 256, whose pages are in the TLB. -/
def heron (g3 : Nat) : State := on0 (fun t => { (t.modNi fun n => { n with send := [{ peer := 40003, cls := 6, next := 5, una := 4 }, { peer := 40000, cls := 6, next := 5, una := 4 }] }) with
  pool := Mem.write t.pool 256 headB, vol := { t.vol with tlbL := { ents := [(0, (pageD.1, pageD.2 ||| 2 ^ 57))], order := [0], ptr := 0, pins := [] } } }) (regs [(1, 256), (2, 512), (3, BitVec.ofNat 64 g3)])
def headH : Head := { base := 0x8000000000000000, dim := 64, hor := 300, scl := 0x3f800000 }
theorem wit_QueueAndHeronUnits : (let s := winS 0 (regs [(1, 3)]); let u := abc 3 1 2; let w := s.cx.rg u.b;
      Free s u [u.b] [u.a] ∧ s.me.blk.lr.ord = false ∧ fld w 63 28 = 0 ∧ fld w 15 11 = 0 ∧ NotHeld s ∧ windowEntry s.me.blk.ni.win (fld w 10 0) = some 0 ∧
      (s.me.blk.ni.win.toList.getD 0 (0, 0)).2.toNat < fld w 27 24 + 1 ∧ s.me.freeJournal.isSome = true ∧ CanSend s (.slice (fld w 10 0 % 24)) ∧ RoomFor s (.slice 3)) ∧
    (let s := winS 1 (regs [(1, 3)]); windowEntry s.me.blk.ni.win 3 = some 0 ∧ fld (s.cx.rg 1) 27 24 + 1 ≤ (s.me.blk.ni.win.toList.getD 0 (0, 0)).2.toNat) ∧
    (CanTrap (regs [(1, 0x800)]) ∧ fld ((regs [(1, 0x800)]).cx.rg 1) 15 11 ≠ 0 ∧ fld ((regs [(1, 0x10000000)]).cx.rg 1) 63 28 ≠ 0 ∧
      CanTrap (lr0 (fun r => { r with ord := true }) w0)) ∧
    (let s := heron 4096; let u := abc 3 1 2; let w := s.cx.rg u.a;
      Free s u [u.a, u.b, u.c] [] ∧ s.me.blk.lr.ord = false ∧ NotHeld s ∧ s.ownOperand (s.cx.rg u.b) 64 64 false = .inr 256 ∧ s.me.head 256 = some headH ∧
      fld w 63 50 = 0 ∧ fld w 31 21 = 0 ∧ s.ownOperand (s.cx.rg u.c) (2 * headH.dim) 128 false = .inr 512 ∧
      s.ownOperand (BitVec.ofNat 64 (fld w 20 0)) ((fld w 49 48 + 1) * 256 * headH.recSize) 128 true = .inr 4096 ∧
      s.headPages headH ((List.range (fld w 49 48 + 1)).map (fun i => fld w 47 32 + i)) = .all [(0, .bank 0, 0)] [0] ∧ s.me.blk.en.queries.length < 4 ∧
      s.me.freeLock.isSome = true ∧ (∃ k ∈ s.me.blk.ni.send, k.peer = ownerCode (.bank 0) ∧ k.cls = 6) ∧ s.closing s.cur (ownerCode (.bank 0)) 6 = false) ∧
    (let s := heron 257; let u := abc 3 1 2;
      fld (s.cx.rg u.a) 63 32 = 0 ∧ s.ownOperand (s.cx.rg u.c) (4 * headH.dim) 128 false = .inr 512 ∧
      s.headPage (headH.page (headH.place (fld (s.cx.rg u.a) 31 0)).1) true = .at (.bank 0) 0 0 ∧ s.me.freeJournal.isSome = true ∧ CanSend s (.bank 0)) := by
  refine ⟨⟨?_, ?_, ?_, ?_, ?_, ?_, ?_, ?_, ?_, show _ < 8 from ?_⟩, ?_, ?_, ⟨?_, ?_, ?_, ?_, ?_, ?_, ?_, ?_, ?_, ?_, ?_, ?_, ?_, ?_⟩, ?_, ?_, ?_, ?_, ?_⟩
  all_goals try unfold CanSend
  all_goals repeat' first | decide +kernel | constructor

/-! ### The TSC and the tables, barriers and steps, stamped words -/

def sel (op kind pos allp idx asid : Nat) : Word := BitVec.ofNat 64 (op * 2 ^ 30 + kind * 2 ^ 28 + pos * 2 ^ 24 + allp * 2 ^ 23 + idx * 2 ^ 12 + asid)
def tw (tag mode res req ctx kind pos : Nat) : Word := BitVec.ofNat 64 (tag * 2 ^ 48 + mode * 2 ^ 40 + res * 2 ^ 38 + req * 2 ^ 32 + ctx * 2 ^ 8 + kind * 2 ^ 4 + pos)
def req4 : TscReq := { slot := 4, addr := devA, acc := 0, kind := 0, pos := 3, ctx := 1, asid := 7, gen := 2, tag := 0x77, res := 0, taken := false }
/-- The TSC of cluster 0 with a request of context 1 of position 3, which waits for it. -/
def tscR (l : List (RegNo × Word)) : State := (({ tsc l with clusters := [(0, { Cluster.reset with gent := [(7, 2)], reqs := [req4] })] }).modTile (tileAt 0 3)
  fun t => (t.modCtx 1 fun c => { c with run := .waiting (.xlate 4), pc := 44 }).modLr fun r => { r with upv := 70, gang := some 2, prt := 3 })
def ent0 : Word := BitVec.ofNat 64 (2 * 2 ^ 62 + 0x200000 + 7)
def ent1 : Word := BitVec.ofNat 64 (2 ^ 63 + 2 ^ 61 + 2 ^ 60 + 0x800000)
/-- The unit of page 5 with g2 as operand a and g4 as operand b. -/
def ut : VUnit := { u0 with xp := true, a := 2, b := 4 }
def schedS (mx : Bool) : State := { lr0 (fun r => { r with pres := 8 }) (regs [(4, devA)]) with
    clusters := [(0, { Cluster.reset with mtlb := { ents := [(3, pageD)], order := [3], ptr := 0, pins := [] } })] }.modTile 1 fun t => if mx then t.modArr fun a => { a with mx := some (1, 2, 2) } else t
theorem wit_TlbAndTableUnits : Free (tscR [(4, 8)]) ut [2, 3, 4] [] ∧
    (OnTsc (tscR [(4, sel 0 2 0 0 63 0)]) ∧ tlbpOk (sel 0 2 0 0 63 0) = true ∧ tlbpOk (sel 1 0 0 0 0 0) = true ∧ tlbpOk (sel 2 0 0 0 0 4095) = true ∧ selOp (sel 2 0 0 0 0 4095) = 2 ∧ selOp (sel 1 0 0 0 0 0) = 1 ∧
      selOp (sel 0 2 0 0 63 0) = 0 ∧ ((tscR []).cluster 0).reqs.find? (fun r => !r.taken) = some req4 ∧ ((tsc []).cluster 0).reqs.find? (fun r => !r.taken) = none) ∧
    tlbiOk (sel 1 3 0 1 0 0) devA = true ∧
    (let w := tw 0 0 0 0 0 0 3; twMode w < 2 ∧ twRes w = 0 ∧ twKind w ≠ 3 ∧ entryOk60 ent0 ent1 = true ∧ (((tscR []).tlb 0 (twKind w) (twPos w)).fill (twKind w) ent0 ent1).isSome = true) ∧
    (let w := tw 0 3 1 4 0 0 0; twMode w = 3 ∧ twRes w = 1 ∧ twKind w ≠ 3 ∧ ((tscR []).cluster 0).reqs.find? (fun r => r.slot == twReq w && r.acc != 3) = some req4 ∧
      req4.acc ≠ 2 ∧ req4.kind ≠ 1 ∧ req4.pos < 16 ∧ (tscR []).onSlot (tileAt 0 3) 1 4 = true ∧ fld ((tscR []).tile (tileAt 0 3)).blk.lr.upv 20 0 ≠ 0 ∧
      (((tscR []).tile (tileAt 0 3)).ctx 1).upCause = 0 ∧ (((tscR []).tile (tileAt 0 3)).ctx 1).nest = false) ∧
    (let w := tw 0x77 2 1 0 1 0 3; twMode w = 2 ∧ twRes w = 1 ∧ twKind w ≠ 1 ∧ twKind w ≠ 3 ∧ ((tsc []).number (tsc []).cur (tileAt 0 (twPos w)) 1).isSome = true) ∧
    fld ((tsc [(4, 0xFFF)]).cx.rg 4) 63 12 = 0 ∧ (Unlogged w0 ∧ fld ((regs [(4, 0x1FFFFF)]).cx.rg 4) 63 21 = 0) ∧
    (let s := tsc [(2, 15), (4, 0x14)]; fld (s.cx.rg 2) 63 4 = 0 ∧ fld (s.cx.rg 4) 63 48 = 0 ∧ fld (s.cx.rg 4) 63 5 = 0 ∧ fld (s.cx.rg 4) 3 3 = 0 ∧ fld (s.cx.rg 4) 2 0 < 5 ∧
      (s.tile (tileAt 0 15)).blk.arr.queue = []) ∧ fld ((regs [(2, 3)]).cx.rg 2) 63 2 = 0 ∧
    (let s := schedS false; let a := s.cx.rg 4;
      s.cur < 30720 ∧ Free s ut [4] [] ∧ NotHeld s ∧ s.me.blk.lr.pres.getLsbD 3 = true ∧ fld a 63 62 = 2 ∧ (s.classify a 256).isSome = true ∧ a.toNat % 256 = 0 ∧
      s.me.blk.arr.mx = none ∧ (s.cluster 0).mtlb.hit a (s.asidGen s.cur).1 (s.asidGen s.cur).2 = some (3, pageD.1, pageD.2) ∧ entryRd pageD.2 = true ∧
      s.scheduleBusy s.cur 2 = false ∧ (schedS true).scheduleBusy (schedS true).cur 2 = true ∧
      s.farPlace 2 (entryPa pageD.2 a) (entryHs pageD.2) (entrySt pageD.2) = .at (.far (.slice 0) 0x100 false) none ∧ CanSend s (.slice 0) ∧ s.me.outKind .dev < 8) ∧
    (w0.cx.rg 0 = 0 ∧ (let s := regs [(2, 256), (4, 1024)]; 0 < (s.cx.rg 4).toNat ∧ (s.cx.rg 4).toNat ≤ 1024 ∧ fld (s.cx.rg 2) 63 21 = 0 ∧
      s.find { size := 8 * (s.cx.rg 4).toNat, align := 128, rd := true, wr := false, lock := some false, spaces := 0x1, ord := false } (s.cx.rg 2) = .at (.own 256) none ∧
      (s.me.unlock 40).freeLock.isSome = true)) ∧
    (let s := tscR [(2, 0x1601), (4, 0x3F800000)]; let x := s.cx.rg 2;
      fld x 7 4 = 0 ∧ fld x 63 13 = 0 ∧ fld x 3 0 ≠ 0 ∧ fld x 12 8 ≤ 22 ∧ fld (s.cx.rg 4) 63 32 = 0 ∧ s.clusterPart 0 = some 3 ∧ (tsc []).clusterPart 0 = none) ∧
    (let w := (regs [(4, 0xBF9F)]).cx.rg 4; fld w 63 16 = 0 ∧ fld w 15 8 ≤ 191 ∧ fld w 7 0 ≤ 159) := by
  refine ⟨?_, ?_, ?_, ?_, ?_, ?_, ?_, ?_, ?_, ?_, ⟨?_, ?_, rfl, ?_, ?_, ?_, ?_, ?_, ?_, ?_, ?_, ?_, ?_, show Option.isSome _ = true from ?_, ?_⟩, ?_⟩
  all_goals repeat' first | decide +kernel | apply And.intro | apply OnTsc.mk

def sy0 (f : SyncPart → SyncPart) (s : State) : State := on0 (fun t => t.modSy f) s
def rec0 : LRec :=
  { readRec (List.replicate 256 0) with
    gw := 2, gh := 2, xb := 128, tent := 4, bent := 70, d := 9000000, w := 1000, cval := 77, img := sysA, isz := 64, ctxl := 5
    csig := BitVec.ofNat 64 (3 * 2 ^ 62 + 0x6000), crec := BitVec.ofNat 64 (3 * 2 ^ 62 + 0x5000), savb := BitVec.ofNat 64 (2 * 2 ^ 62 + 0x40000000) }
def gang0 (st : GangState) : Gang :=
  { lrec := rec0, queue := 1, state := st, stepped := false, d := 9000000, b := 8000000, gst := 41, srq := false, ls := 4, cln := 3, doms := [], probes := [], wrap := false
    fatals := 0, firstFatal := none, sweepLate := false, failed := false, switchAt := none, routes := [], mgAt := 0 }
/-- The host has mapped the first MiB of system memory for PASIDs 0 and 9, and of device memory for ASID 0 (R232). -/
def hostMaps : List CpMap := [(true, 0), (true, 9), (false, 0)].map fun e => { sys := e.1, id := e.2, va := 0, pa := 0, size := 0x100000 }
/-- Launch 4 runs on tiles (0, 0) to (1, 1). -/
def onGang (k : Gang) (s : State) : State := let s := { s with cp := { s.cp with gangs := [(4, k)], nextGang := 9, maps := hostMaps } }
  [0, 1, 192, 193].foldl (fun s t => s.modTile t fun x => x.modLr fun r => { r with gang := some 4, xb := 128, part := 0x81, tent := 8, bent := 70, ctxl := 5, dln := 0xFFFFFFFFFFFFFFFF }) s
def uDiv : State := cx0 (fun c => { c with diverted := true }) w0
theorem wit_BarrierTimeAndStepUnits : (let s := sy0 (fun k => { k with mem := 0x8001 }) w0; let t := sy0 (fun k => { k with mem := 0x8001, arr := 0x8001 }) w0;
      let u := { u0 with xp := true, b := 15 };
      Free s u [0] [] ∧ Free s u [] [] ∧ u.b.toNat < 16 ∧ s.me.blk.sy.mem.getLsbD u.b.toNat = true ∧ s.me.blk.sy.arr.getLsbD u.b.toNat = false ∧ t.me.blk.sy.arr.getLsbD u.b.toNat = true ∧
      CanTrap s ∧ s.me.blk.sy.mem.getLsbD (u0.b.toNat + 1) = false) ∧
    (let s := onGang (gang0 .running) w0; s.me.blk.lr.gang = some 4 ∧ s.gang? 4 = some (gang0 .running) ∧ s.me.vol.replay = none) ∧
    (Unlogged w0 ∧ (lr0 (fun r => { r with dln := 0xFFFFFFFFFFFFFFFF }) w0).me.blk.lr.dln = 0xFFFFFFFFFFFFFFFF ∧ w0.me.blk.lr.dln ≠ 0xFFFFFFFFFFFFFFFF) ∧
    (Free uDiv u0 [0] [] ∧ uDiv.cx.diverted = true ∧ fld ((cx0 (fun c => c.wg 1 63) uDiv).cx.rg 1) 63 6 = 0) ∧ (CanTrap w0 ∧ w0.cx.diverted = false) ∧
    (fld ((regs [(1, 1)]).cx.rg 1) 63 1 = 0 ∧ CanTrap (regs [(1, 2)]) ∧ fld ((regs [(1, 2)]).cx.rg 1) 63 1 ≠ 0) ∧ (u0.ik = 0 ∧ ({ u0 with b := 1 } : VUnit).ik ≠ 0) := by
  repeat' first | decide +kernel | constructor

/-- A stamped word: step, class, valid, saturated, value. -/
def stw (st cl vld sat val : Nat) : Nat := st * 2 ^ 40 + cl * 2 ^ 36 + vld * 2 ^ 35 + sat * 2 ^ 33 + val
/-- The stamped word at 256, with the register value g3, at step 1000. -/
def stS (w : Nat) (g3 : Nat) : State := lane0 (on0 (fun t =>
  { (t.modLr fun r => { r with steps := 1000 }) with pool := Mem.write t.pool 256 (leBytes 8 w), vol := { t.vol with decayA := [(96, 0x3f000000)] } }) (regs [(1, 256), (3, BitVec.ofNat 64 g3)]))
def uk : VUnit := { u0 with xp := true, a := 3, b := 1 }
def uvk : VUnit := { abc 3 1 2 with xp := true, xq := some { pred := 1, neg := false, hi := 5, lo := 0 } }
def good : Nat := stw 999 3 1 0 0x3f800000
def old : Nat := stw (2 ^ 23 + 990) 3 1 0 0x3f800000
def rd (s : State) : Stamped := stampRead (decayEntry s.me.vol.decayA) (Mem.nat s.me.pool (fld (s.addrM uk) 20 0) 8) (fld s.me.blk.lr.steps 23 0)
def ad (s : State) (c : Nat) : Stamped := stampAdd (decayEntry s.me.vol.decayA) (Mem.nat s.me.pool (fld (s.addrM uk) 20 0) 8) (fld (s.cx.rg 3) 31 0) (fld s.me.blk.lr.steps 23 0) c
def mr (s : State) : Stamped := stampMerge (decayEntry s.me.vol.decayA) (s.cx.rg 3).toNat (Mem.nat s.me.pool (fld (s.addrM uk) 20 0) 8) (fld s.me.blk.lr.steps 23 0)
def okSt (r : Stamped) : Bool := match r with | .ok _ => true | _ => false
theorem wit_StampedWordsInOwnPool : (let s := stS good 0x40000000;
      Free s uk (uk.a :: regsM uk) [] ∧ NotHeld s ∧ LoadRel s uk ∧ RelFree s (s.relScope uk) ∧ (∀ w, OwnPlace s (s.addrM uk) 8 w) ∧ okSt (rd s) = true ∧
      CanTrap s ∧ fld (s.cx.rg 3) 63 36 = 0 ∧ okSt (ad s (fld (s.cx.rg 3) 35 32)) = true) ∧ rd (stS old 0) = .age ∧ ad (stS old 0) 0 = .age ∧
    (let x := (stS 0 (2 ^ 37 + 2 ^ 36 + 3 * 2 ^ 32)).cx.rg 3; fld x 63 38 = 0 ∧ x.getLsbD 37 = true) ∧ (let x := (stS 0 0).cx.rg 3; x.getLsbD 37 = false ∧ fld x 36 0 = 0) ∧
    okSt (mr (stS good good)) = true ∧ mr (stS old good) = .age ∧ mr (stS good (stw 999 0 1 0 0)) = .cls ∧
    (let s := stS good 0; let a := s.addrM { uk with b := 1 };
      LanesFree s [1, 2] [3] ∧ LoadRel s uvk ∧ RelFree s (s.relScope uvk) ∧ (∀ w, OwnOk s (fld a 20 0) 256 w) ∧ s.lanes uvk = [0] ∧ fld (s.cx.rg 0) 63 4 = 0 ∧ rd s ≠ .age ∧ okSt (ad s 0) = true) := by
  refine ⟨⟨⟨by decide +kernel, rfl⟩, rfl, fun h => absurd h (by decide), relFree_none (by decide +kernel), fun w => ?_, ?_⟩, ?_, ?_, ?_, ?_, ?_, ?_, ?_,
    rfl, fun h => absurd h (by decide), relFree_none (by decide +kernel), fun w => ?_, ?_⟩
  case refine_1 => cases w <;> constructor <;> first | decide +kernel | (constructor <;> decide +kernel)
  case refine_10 => cases w <;> constructor <;> decide +kernel
  all_goals repeat' first | decide +kernel | constructor

theorem wit_StampedWordsElsewhere : (∀ acc ∈ [stampRd, stampWr, stampRmw], farV.find acc (farV.addrM uk) = .at (.far (.slice 0) 0x100 false) (some 0)) ∧ CanSend farV (.slice 0) ∧
    RoomFor farV (.slice 0) ∧ Free farV uk (uk.a :: regsM uk) [] ∧ fld (farV.cx.rg 3) 63 36 = 0 := by
  refine ⟨by decide +kernel, by unfold CanSend; decide +kernel, (by decide +kernel : farV.me.outKind .dev < 8), ⟨by decide +kernel, by decide +kernel⟩, by decide +kernel⟩
theorem wit_StampedVectorsElsewhere : farV.lanes uvk = [0] ∧ fld (farV.cx.rg uvk.c) 63 4 = 0 ∧ farV.addrM { uk with b := 1 } = farV.cx.rg uvk.b ∧
    farV.early { stampRd with size := 256 } (farV.cx.rg uvk.b) = none ∧ farV.early { stampRmw with size := 256 } (farV.cx.rg uvk.b) = none ∧
    farV.findAll stampRd ([0].map (laneAddr (farV.cx.rg uvk.b))) = .all [farP] [0] ∧ farV.findAll stampRmw ([0].map (laneAddr (farV.cx.rg uvk.b))) = .all [farP] [0] :=
  ⟨by decide +kernel, by decide +kernel, by decide +kernel, by decide +kernel, by decide +kernel, by decide +kernel, by decide +kernel⟩

def rdv (u : Nat) : LogRec :=
  { ucnt := BitVec.ofNat 40 u, kind := .rdv, rsm := false, ctx := 0, cls := 0, seq := 0, src := 0, aux := 0, data := leBytes 8 0x1234, durable := false, pkt := none, answer := none }
def inGang : State := onGang (gang0 .running) w0
def vol0 (f : Volatile → Volatile) (s : State) : State := on0 (fun t => t.modVol f) s
def fen0 (f : Fen → Fen) (s : State) : State := s.modFen 0 f
theorem wit_MarksCountersAndReadings : (Free inGang u0 [] [] ∧ inGang.cur < 30720 ∧ inGang.me.blk.lr.gang.isSome = true ∧ (inGang.fen inGang.cur).unprotected = false ∧
      inGang.me.vol.replay = none ∧ inGang.me.vol.phase = .none ∧ inGang.logs inGang.cur = true) ∧
    (30720 ≤ (tsc []).cur ∧ w0.me.blk.lr.gang = none ∧ ((fen0 (fun f => { f with unprotected := true }) inGang).fen 0).unprotected = true ∧
      (vol0 (fun v => { v with phase := .triggered }) inGang).me.vol.phase = .triggered) ∧
    (let s := vol0 (fun v => { v with phase := .committing }) inGang; s.me.vol.phase ≠ .none ∧ s.me.vol.phase ≠ .triggered ∧ (s.fen s.cur).unprotected = false ∧ s.me.vol.replay = none) ∧
    (let s := regs [(1, 7)]; let x := s.cx.rg 1; Free s uk [3, 1] [] ∧ Unlogged s ∧ x.getLsbD 31 = false ∧ fld x 63 32 = 0 ∧ fld x 29 3 = 0 ∧
      fld (s.me.blk.ct.sels.toList.getD (fld x 2 0) 0) 15 8 ∉ [1, 2, 3, 4, 5]) ∧
    (let w := (regs [(1, 0xBF9F)]).cx.rg 1; fld w 63 16 = 0 ∧ fld w 15 8 ≤ 191 ∧ fld w 7 0 ≤ 159) ∧
    (let s := vol0 (fun v => { v with replay := some [rdv 0] }) inGang; s.me.vol.replay = some [rdv 0] ∧ takeRec .rdv (s.me.blk.ct.ucnt.setWidth 40) [rdv 0] = some (rdv 0, [])) := by
  repeat' first | decide +kernel | constructor

/-! ### Bring-up, host queues, launches -/

def mg0 (f : Mgmt → Mgmt) (s : State) : State := { s with mg := f s.mg }
def cp0 (f : Cp → Cp) (s : State) : State := { s with cp := f s.cp }
/-- The host has written the operand words of a mailbox command (R471). -/
def mail (ws : List Word) (s : State) : State := mg0 (fun m => { m with mailOps := (List.range ws.length).zip ws }) s
def cl0 (f : Cluster → Cluster) (s : State) : State := s.modCluster 0 f
/-- Verified images of every kind (R472). -/
def images : List FwImage := [.helhal, .rv32e, .tsc, .optimiser, .milliner, .crown, .training].map fun k => { kind := k, bytes := [1, 2], digest := 0, version := 3, sig := [] }
def ready (l : List Fn) : State := let m := l.foldl (fun m f => m.setReady f true) w0.mg; { w0 with mg := { m with rdyc := m.rdyc ||| 0x1F, fwLoaded := images } }
def sysW (x : Nat) : Word := BitVec.ofNat 64 (3 * 2 ^ 62 + x)
def pkt (ws : List Nat) : List Byte := (ws ++ List.replicate (8 - ws.length) 0).flatMap (leBytes 8)
def que : HostQ := { HostQ.reset with state := 1, head := 3, tail := 5, ring := sysW 0x10000, lsz := 4, tkt := 10, prt := 0, pass := 100, joined := true }
/-- Queue 1 has a packet at its head, and its turn runs. -/
def wQ (f : HostQ → HostQ) (ws : List Nat) (more : List (Nat × List Byte)) : State :=
  { ready [.field 0, .cpx] with
    host := more.foldl (fun m e => Mem.write m e.1 e.2) (Mem.write [] (0x10000 + 64 * 3) (pkt ws)), cp := { Cp.reset with queues := [(1, f que)], turn := some 1, nextGang := 9, maps := hostMaps } }
def ptype (n : Nat) : Nat := n * 2 ^ 56
def page1 : PageReq := { tag := 0x55, pasid := 3, addr := devA, acc := 1, cluster := 7, kind := 0, pos := 2, ctx := 1, asid := 4, gen := 1 }
/-- The Crown and the command processor are ready; the TSC clock is locked; ports 5 and 15 have heard masters, port 15 the better one. -/
def upS (l : List Fn) (a : EvArg) : State := let s := ready (.crown :: .cpx :: l); arg0 { s with clk := { s.clk with announce := [(5, 9), (15, 4)] } } a
theorem wit_BringUpPowerAndWatchdogs : (∀ b : Bool, let s := upS [] { fn := .field 83, b := b }; s.mg.ended s.arg.fn = false ∧ s.mg.mayComeUp s.arg.fn = true ∧ s.arg.b = b ∧ FnOk s.arg.fn) ∧
    ((upS [.field 83] { fn := .field 83 }).mg.ended (.field 83) = true ∧ w0.mg.mayComeUp (.field 83) = false) ∧
    (let s := upS [.field 83] { fn := .field 83 }; s.mg.isReady s.arg.fn = true ∧ FnOk s.arg.fn) ∧ w0.mg.rdyc.getLsbD 4 = false ∧
    (let s := mg0 (fun m => { m with domainNumber := 6 }) (upS [.belvis 5, .belvis 15] { n := 15, j := 6 });
      s.arg.n < 16 ∧ s.mg.isReady (.belvis s.arg.n) = true ∧ s.mg.rdyc.getLsbD 4 = true ∧ s.mg.domainNumber = BitVec.ofNat 64 s.arg.j ∧ s.mg.rdyc.getLsbD 3 = true ∧
      s.arg.b = false ∧ s.masterPort = some s.arg.n ∧ s.masterPort ≠ some 5) ∧
    (w0.cp.hung = false ∧ (cp0 (fun c => { c with beat := true }) w0).cp.beat = true ∧ (cp0 (fun c => { c with beat := false }) w0).cp.beat = false) ∧
    ((w0.tile w0.arg.n).vol.failed = false ∧ w0.arg.n < 30720 ∧ w0.arg.b = false ∧ ((vol0 (fun v => { v with beat := true }) w0).tile (w0.hostOf 0)).vol.beat = true ∧
      ((vol0 (fun v => { v with beat := false }) w0).tile (w0.hostOf 0)).vol.beat = false) ∧
    (∀ l ∈ [[], [32 * 7 + 16]], let s := arg0 (mg0 (fun m => { m with silent := l }) w0) { n := 7, i := 16, b := true }; s.arg.b = true ∧ s.siteIdle s.arg.n s.arg.i = true ∧ s.mg.silent = l) ∧
    (arg0 w0 { n := 1950, i := 3, b := true }).siteIdle 1950 3 = true ∧ (∃ k ∈ needsOf (.field 0), ∀ c ∈ w0.mg.fwLoaded, c.kind ≠ k) ∧
    (let s := arg0 w0 { n := 1920 }; 1920 ≤ s.arg.n ∧ s.arg.n < 2016 ∧ s.carriedBy s.arg.n = none) ∧
    (((cl0 (fun c => { c with tscBeat := true }) w0).cluster 0).tscBeat = true ∧ ((cl0 (fun c => { c with tscBeat := false }) w0).cluster 0).tscBeat = false) ∧
    (let s := arg0 (mg0 (fun m => { m with badSites := [(0, [3])] }) w0) { i := 3 }; (s.badSites (s.pcnOf s.arg.n)).contains s.arg.i = true) ∧
    (let s := arg0 w0 { n := 1919, nums := [3] };
      s.arg.n < 1920 ∧ (∀ p, p < 16 → (s.tile (tileAt s.arg.n p)).blk.lr.gang = none) ∧ s.mg.shadow = none ∧ ∀ x ∈ s.mg.repairs, clusterOf x ≠ s.arg.n) ∧
    (mail [1, 0] w0).mailOp 0 = 1 ∧
    (let s := mail [1] (wQ id [ptype 13] []); let q := (s.mailOp 0).toNat % 1024; s.frozen q = false ∧ s.inA q = true ∧ s.headPacket q = .malformed ∧ (s.queue q).tkt ≠ 0) ∧
    (let s := mail [1] (wQ (fun q => { q with tkt := 0 }) [ptype 13] []); (s.queue ((s.mailOp 0).toNat % 1024)).tkt = 0) ∧
    (∀ hung : Bool, let s := arg0 (mail [0x55, 2] (cp0 (fun c => { c with pages := [page1], hung := hung }) w0)) { n := 0x55, j := 2 };
      s.cp.pages.find? (fun p => p.tag == BitVec.ofNat 16 s.arg.n) = some page1 ∧ (s.mailOp 0).setWidth 16 = BitVec.ofNat 16 s.arg.n ∧ (s.mailOp 1).toNat = s.arg.j ∧
      (s.cluster page1.cluster).reqs.length < 64 ∧ s.cp.hung = hung) := by
  refine ⟨fun b => ⟨?_, ?_, ?_, (by decide : 83 < 84)⟩, ?_, ⟨?_, (by decide : 83 < 84)⟩, ?_⟩
  all_goals (try revert b)
  all_goals repeat' first | decide +kernel | apply And.intro

def cmdW (cmd lsz : Nat) : Word := BitVec.ofNat 64 (9 * 2 ^ 48 + lsz * 2 ^ 44 + cmd * 2 ^ 36 + 77)
theorem wit_QueueRegistersAndChoice : (fld (cmdW 0 4) 39 36 = 0 ∧ 1023 < 1024 ∧ 15 < 16 ∧ (w0.partition 15).en = false ∧ (w0.queue 1023).state = 0) ∧
    (let s := arg0 (wQ id [] []) { n := 1, w := 0x20000 }; s.arg.n < 1024 ∧ (s.queue s.arg.n).state ≠ 0 ∧ (s.queue s.arg.n).state ≠ 3 ∧
      (s.queue s.arg.n).size < (s.arg.w.setWidth 32 - (s.queue s.arg.n).head).toNat ∧ (s.arg.w.setWidth 32 - (s.queue s.arg.n).head).toNat < 2 ^ 31) ∧
    (fld (cmdW 1 12) 39 36 = 1 ∧ fld (cmdW 1 12) 47 44 ≤ 12 ∧ 12 < fld (cmdW 1 13) 47 44) ∧ (fld (cmdW 2 0) 39 36 = 2 ∧ fld (cmdW 3 0) 39 36 = 3 ∧ fld (cmdW 4 0) 39 36 = 4) ∧
    ((wQ (fun q => { q with state := 2 }) [] []).queue 1).state = 2 ∧
    (let s := onGang { gang0 .running with queue := 1 } { wQ id [] [] with clk := w0.clk };
      s.gang? 4 = some (gang0 .running) ∧ (4, gang0 .running) ∈ s.cp.gangs ∧ (gang0 .running).queue = 1 ∧ (gang0 .running).state ≠ .switchedOut ∧ s.time.toNat < (gang0 .running).b.toNat) ∧
    (let s := arg0 (cp0 (fun c => { c with parts := [(0, { (w0.partition 0) with en := false }), (3, { (w0.partition 3) with pcnt := 4, pbas := 3 })] }) w0) { n := 3 }; s.arg.n < 16 ∧ (s.partition s.arg.n).en = false ∧ s.partitionFits s.arg.n = true ∧
      (∀ e ∈ s.cp.queues, e.2.state ≠ 0 → (s.queue e.1).prt.toNat ≠ s.arg.n) ∧ ∀ e ∈ s.cp.gangs, (s.queue e.2.queue).prt.toNat ≠ s.arg.n) ∧
    (let s := cp0 (fun c => { c with turn := none }) (wQ id [ptype 10] []); s.cpLive = true ∧ s.cp.turn = none ∧ s.join.choose = some 1) ∧
    (let s := wQ (fun q => { q with tail := 3 }) [] []; s.cpLive = true ∧ s.cp.turn = some 1 ∧ s.frozen 1 = false ∧ s.headPacket 1 = .empty) ∧
    (wQ (fun q => { q with ring := 0 }) [] []).headPacket 1 = .unreadable ∧ (wQ id [ptype 13] []).headPacket 1 = .malformed := by
  repeat' first | decide +kernel | apply And.intro

def words (ws : List Nat) : List Word := (ws ++ List.replicate (8 - ws.length) 0).map (BitVec.ofNat 64)
theorem at_packet (f : HostQ → HostQ) (ws : List Nat) (more : List (Nat × List Byte)) (typ : Nat) (h1 : (wQ f ws more).cpLive = true)
    (h2 : (wQ f ws more).frozen 1 = false) (h3 : (wQ f ws more).headPacket 1 = .packet (words ws)) (h4 : fld ((words ws).getD 0 0) 63 56 = typ) :
    AtPacket (wQ f ws more) 1 typ (fun i => (words ws).getD i 0) := ⟨rfl, h1, h2, ⟨_, h3, rfl⟩, h4⟩
def recBytes : List Byte := ([(0, 2, 1), (3, 1, 0xE3), (6, 1, 2), (7, 1, 2), (10, 1, 1), (13, 1, 99), (16, 8, 0x20081), (24, 8, 3 * 2 ^ 62 + 0x40000), (0x20, 4, 64), (0x24, 4, 128), (0x28, 4, 4),
    (0x2C, 4, 8), (0x38, 8, 90000), (0x40, 8, 1000), (0x54, 4, 9 * 4096), (0x58, 8, 55), (0xA0, 8, 3 * 2 ^ 62 + 0x50000), (0xA8, 8, 3 * 2 ^ 62 + 0x60000), (0xB0, 8, 77)]
  : List (Nat × Nat × Nat)).foldl (fun b e => (leBytes e.2.1 e.2.2).zipIdx.foldl (fun b c => b.set (e.1 + c.2) c.1) b) (List.replicate 256 0)
def img64 : Nat × List Byte := (0x40000, List.replicate 64 5)
def wLaunch : State := wQ id [ptype 1, 3 * 2 ^ 62 + 0x20000] [(0x20000, recBytes), img64]
def sig : List (Nat × List Byte) := [(0x7000, leBytes 8 40)]
def S7 : Nat := 3 * 2 ^ 62 + 0x7000
theorem wit_QueuePackets_Launch : let e := fun i => (words [ptype 1, 3 * 2 ^ 62 + 0x20000]).getD i 0; let r := readRec recBytes;
    AtPacket wLaunch 1 1 e ∧ wLaunch.cpRead (wLaunch.queueSpace 1) (e 1) 256 = some recBytes ∧ recZero recBytes = true ∧ wLaunch.invalid r (wLaunch.queue 1).prt.toNat = none ∧
    wLaunch.time.toNat < r.d.toNat ∧ (r.bent = 0 → wLaunch.time.toNat < r.b.toNat) ∧ wLaunch.place 1 (wLaunch.queue 1).prt.toNat r = some (0, 0) ∧ wLaunch.cyclic r = false :=
  ⟨at_packet _ _ _ _ (by decide +kernel) (by decide +kernel) (by decide +kernel) (by decide +kernel), by decide +kernel, by decide +kernel, by decide +kernel, by decide +kernel,
    by decide +kernel, by decide +kernel, by decide +kernel⟩
theorem wit_QueuePackets_Launchi : let ws := [ptype 2, 3 * 2 ^ 62 + 0x20000, 3 * 2 ^ 62 + 0x30000]; let s := wQ id ws [(0x20000, recBytes), (0x30000, [2, 4]), img64];
    let r := { readRec recBytes with gw := 2, gh := 4 };
    AtPacket s 1 2 (fun i => (words ws).getD i 0) ∧ s.cpRead (s.queueSpace 1) (BitVec.ofNat 64 (3 * 2 ^ 62 + 0x30000)) 2 = some [2, 4] ∧ s.invalid r (s.queue 1).prt.toNat = none ∧
    (s.place 1 (s.queue 1).prt.toNat r).isSome = true :=
  ⟨at_packet _ _ _ _ (by decide +kernel) (by decide +kernel) (by decide +kernel) (by decide +kernel), by decide +kernel, by decide +kernel, by decide +kernel⟩
theorem wit_QueuePackets_Invalid : let b := recBytes.set 6 3; let ws := [ptype 1, 3 * 2 ^ 62 + 0x20000]; let s := wQ id ws [(0x20000, b), img64];
    AtPacket s 1 1 (fun i => (words ws).getD i 0) ∧ s.cpRead (s.queueSpace 1) (BitVec.ofNat 64 (3 * 2 ^ 62 + 0x20000)) 256 = some b ∧
    ((if recZero b then s.invalid (readRec b) (s.queue 1).prt.toNat else some 1) : Option Nat).isSome = true :=
  ⟨at_packet _ _ _ _ (by decide +kernel) (by decide +kernel) (by decide +kernel) (by decide +kernel), by decide +kernel, by decide +kernel⟩
def atP (f : HostQ → HostQ) (ws : List Nat) (typ : Nat) : Prop := AtPacket (wQ f ws sig) 1 typ (fun i => (words ws).getD i 0)
theorem wit_QueuePackets : (atP id [ptype 3, 5] 3 ∧ ((wQ id [ptype 3, 5] sig).queue 1).loops.length < 4 ∧ 4 ≤ ((wQ (fun q => { q with loops := List.replicate 4 (1, 1) }) [ptype 3, 5] sig).queue 1).loops.length) ∧
    (atP (fun q => { q with loops := [(2, 3)] }) [ptype 4] 4 ∧ ((wQ id [ptype 4] sig).queue 1).loops = []) ∧ atP id [ptype 5, S7, 40, 0, 3] 5 ∧ (wQ id [] sig).cpWord ((wQ id [] sig).queueSpace 1) (BitVec.ofNat 64 S7) = some 40 ∧
    (atP id [ptype 6, S7, 40, 2] 6 ∧ signalHolds 2 40 40 = true ∧ signalHolds 2 40 41 = false) ∧ atP id [ptype 7, S7, 5, 1] 7 ∧
    (atP id [ptype 8, S7, 1, 2, 3, 4, 32] 8 ∧ ((wQ id [] sig).cpPlace ((wQ id [] sig).queueSpace 1) (BitVec.ofNat 64 S7) 32).isSome = true) ∧
    (atP id [ptype 9, 2 * 2 ^ 62 + 0x9000, S7, 128] 9 ∧ ((wQ id [] sig).cpRead ((wQ id [] sig).queueSpace 1) (BitVec.ofNat 64 S7) 128).isSome = true ∧ ((wQ id [] sig).cpPlace ((wQ id [] sig).queueSpace 1) (BitVec.ofNat 64 (2 * 2 ^ 62 + 0x9000)) 128).isSome = true) ∧
    (atP id [ptype 10] 10 ∧ (wQ id [] sig).launchesOf 1 = [] ∧ (onGang (gang0 .running) (wQ id [] sig)).launchesOf 1 ≠ []) ∧ atP id [ptype 11, 0] 11 ∧
    (atP id [ptype 12, 0] 12 ∧ atP id [ptype 12, 1] 12 ∧ (wQ id [] sig).time = 0) ∧
    (let s := arg0 (wQ (fun q => { q with wait := some (.signal (BitVec.ofNat 64 S7) 40 2) }) [] sig) { n := 1 };
      s.cpLive = true ∧ s.frozen s.arg.n = false ∧ (s.queue s.arg.n).state = 1 ∧ (s.queue s.arg.n).wait = some (.signal (BitVec.ofNat 64 S7) 40 2)) ∧
    (let s := arg0 (wQ (fun q => { q with wait := some (.time 0) }) [] sig) { n := 1 }; (s.queue s.arg.n).wait = some (.time 0) ∧ (0 : Word).toNat ≤ s.time.toNat) := by
  unfold atP
  repeat' first | decide +kernel | apply And.intro | apply at_packet

theorem wit_HostMappings : let s := arg0 w0 { j := 2, i := 7, w := 0x4000, x := 0x9000, n := 0x1000 }; let a : Word := BitVec.ofNat 64 (2 ^ 63 + 0x4FF0);
    s.arg.j = 2 ∧ s.arg.b = false ∧ s.arg.i = 7 ∧ fld a 63 62 = 2 ∧ fld a 61 48 = 0 ∧ s.arg.w.toNat ≤ fld a 47 0 ∧ fld a 47 0 + 16 ≤ s.arg.w.toNat + s.arg.n ∧
    s.arg.x.toNat + (fld a 47 0 - s.arg.w.toNat) + 16 ≤ deviceEnd ∧ (arg0 w0 { j := 1 }).arg.j = 1 := by decide +kernel
/-- A launch on two clusters, whose class 2 is in table mode: the entry for cluster 0 leads out of cluster 1 to the east. -/
def recLoop : List Byte := ([(6, [8]), (7, [4]), (0x0C, [3]), (0x38, List.replicate 8 0xFF), (0x88, leBytes 8 (3 * 2 ^ 62 + 0x1000))] : List (Nat × List Byte)).foldl
  (fun b e => e.2.zipIdx.foldl (fun b c => b.set (e.1 + c.2) c.1) b) recBytes
def wLoop : State := wQ id [ptype 1, 3 * 2 ^ 62 + 0x20000] [(0x1000, [2]), (0x20000, recLoop), img64]
theorem wit_QueuePackets_Cyclic : let e := fun i => (words [ptype 1, 3 * 2 ^ 62 + 0x20000]).getD i 0; let r := readRec recLoop;
    AtPacket wLoop 1 1 e ∧ wLoop.cpRead (wLoop.queueSpace 1) (e 1) 256 = some recLoop ∧ recZero recLoop = true ∧ wLoop.invalid r (wLoop.queue 1).prt.toNat = none ∧
    r.d = 0xFFFFFFFFFFFFFFFF ∧ r.fxo = false ∧ wLoop.place 1 (wLoop.queue 1).prt.toNat r = some (0, 0) ∧ wLoop.cyclic r = true :=
  ⟨at_packet _ _ _ _ (by decide +kernel) (by decide +kernel) (by decide +kernel) (by decide +kernel), by decide +kernel, by decide +kernel, by decide +kernel, by decide +kernel,
    by decide +kernel, by decide +kernel, by decide +kernel⟩
theorem wit_QueuePackets_Unreadable : let ws := [ptype 1, 3 * 2 ^ 62 + 0x200000]; let s := wQ id ws [];
    AtPacket s 1 1 (fun i => (words ws).getD i 0) ∧ s.cpRead (s.queueSpace 1) (BitVec.ofNat 64 (3 * 2 ^ 62 + 0x200000)) 256 = none :=
  ⟨at_packet _ _ _ _ (by decide +kernel) (by decide +kernel) (by decide +kernel) (by decide +kernel), by decide +kernel⟩

/-! ### Launches, brim time, gang switches -/

def tm (n : Nat) (s : State) : State := { s with clk := { s.clk with now := n * 2 ^ 32 } }
def four (f : Tile → Tile) (s : State) : State := [0, 1, 192, 193].foldl (fun s t => s.modTile t f) s
/-- Launch 4 on its four tiles, contexts idle, at 500 microseconds. -/
def bG (k : Gang) (f : Tile → Tile) (a : EvArg) : State := arg0 (four (fun t => f (t.modLr fun r => { r with started := true })) (onGang k (tm 500 State.reset))) a
def gr : Gang := gang0 .running
/-- Context 0 runs; context 2 is parked until 400, in a unit of two words. -/
def run1 (t : Tile) : Tile := (t.modCtx 0 fun c => { (c.wg 3 5) with run := .ready, pc := 20 }).modCtx 2 fun c => { (c.wg 3 6) with run := .waiting (.park 400 4), pc := 22 }
def spawnMsg : Msg := { cls := 3, long := false, payload := leBytes 4 40 ++ List.replicate 28 9, src := 1, tcx := 0, spawn := true, anum := 2, seq := 0, ctx := 0, tsn := 0 }
def unst (t : Tile) : Tile := t.modLr fun r => { r with started := false }
def taskS (f : Tile → Tile) : State := bG gr (fun t => f (((run1 t).modLr fun r => { r with part := 0x20083 }).modVol fun v => { v with taskQ := [spawnMsg] })) { n := 1 }
/-- A class 0 packet of the command processor has come to a tile (R302). -/
def sysP (n : Nat) (m : SysMsg) : Pkt := { id := 3, src := .cpx, dst := .pool n, cls := 0, seq := 0, body := .sys m, stage := .arrived, pcn := 0, mask := 0, bytes := 0, rel := none }
def told (n : Nat) (m : SysMsg) (s : State) : State := { s with net := [sysP n m], arg := { s.arg with n := n, i := 3 } }
theorem tellsTile {s : State} {n : Nat} {m : SysMsg} (h : s.arrival (.pool n) = some (sysP n m)) : TellsTile s n (sysP n m) m := ⟨h, rfl⟩
def relS (w : Bool) : State := told 193 (.release 4) (bG { gr with wrap := w } unst {})
def rep0 (l : List (Nat × Word × Word)) (k : Gang) : State := cp0 (fun c => { c with reports := l }) (bG k run1 {})
def brim (b d : Nat) (f : Tile → Tile) (a : EvArg) : State :=
  bG { gr with b := BitVec.ofNat 64 b, d := BitVec.ofNat 64 d } (fun t => f ((run1 t).modLr fun r => { r with brt := BitVec.ofNat 64 b, dln := BitVec.ofNat 64 d })) a
/-- A struck bit of the word that the load at pc reads (R229). -/
def struckS : State := on0 (fun t => { t with pool := Mem.write t.pool 16 (bytesOfWords (encode (.ldd (xu 5 1 0 0 false)))), par := [20] }) w0
theorem wit_StepRunsTheDecodedUnit : (let s := at16 [0x0D7E]; let q := { s with sched := [.issue 0] };
      TurnOf s 0 s ∧ TurnOf q 0 { q with sched := [] } ∧ Sound s ∧ s.due 0 = none ∧ s.mayIssue 0 = true ∧ s.overdue = none ∧ s.issuer 0 = some 0 ∧ (s.focus 0 0).boundary = none ∧
      (s.focus 0 0).me.fetchLocked (s.focus 0 0).cx.pc (fetchLen (s.focus 0 0).cx.pc (s.focus 0 0).fetch) = false ∧
      ∃ t, exec (s.focus 0 0).fetch (s.focus 0 0) = .next t) ∧
    (let s := brim 300 900 id { n := 1 }; Sound s ∧ s.overdue.isSome = true) ∧
    struckS.parityHit State.turn = some 0 := by
  refine ⟨⟨.next rfl (by decide +kernel), .chosen [] rfl, by unfold Sound; decide +kernel, by decide +kernel, by decide +kernel, by decide +kernel, by decide +kernel, by decide +kernel, by decide +kernel, _, rfl⟩,
    ⟨by unfold Sound; decide +kernel, overdue_of (k := 1) (by decide +kernel) (timely_of (brimDue_of (by decide +kernel) (by decide +kernel) (by decide +kernel)))⟩, by decide +kernel⟩
theorem wit_LaunchesRun : (let s := arg0 (onGang (gang0 .placed) w0) { n := 4 }; let k := gang0 .placed;
      s.gang? 4 = some k ∧ k.state = .placed ∧ s.cp.hung = false ∧ s.mg.halts.contains 16 = false ∧ s.mg.halts.contains (s.queue k.queue).prt.toNat = false ∧
      k.lrec.gxo + k.lrec.gw ≤ 192 ∧ ∀ x ∈ k.tiles, (s.tile x).vol.failed = false) ∧
    (∀ w : Bool, let s := relS w; let x := s.tile s.arg.n; TellsTile s s.arg.n (sysP 193 (.release 4)) (.release 4) ∧
      x.blk.lr.gang = some 4 ∧ s.gang? 4 = some { gr with wrap := w } ∧ x.blk.lr.started = false ∧ x.vol.failed = false ∧ x.vol.halted = false ∧ x.vol.replay = none ∧
      x.blk.lr.ctxl.getLsbD 2 = true) ∧
    (let s := taskS id; let x := s.tile s.arg.n; let w := fun i => leNat (((x.peek s.fresh x.vol.taskQ (.queue 0)).2.drop (4 * i)).take 4);
      s.freeCtx s.arg.n = some 1 ∧ x.nextSpawn = some (.queue 0) ∧ s.alive s.arg.n = true ∧ x.vol.halted = false ∧ s.unheld s.arg.n = true ∧
      x.blk.lr.started = true ∧ s.brimDue s.arg.n = false ∧ w 0 % 2 = 0 ∧ w 0 < x.blk.lr.xb.toNat) ∧
    (let s := bG gr id { n := 4 }; s.gang? s.arg.n = some gr ∧ s.gangDone s.arg.n gr = true ∧ s.cp.hung = false ∧ (s.cpPlace gr.lrec.space gr.lrec.csig 8).isSome = true ∧ gr.state ≠ .switchedOut) ∧
    (let s := rep0 [(4, 0x105, 0x77), (6, 1, 1)] gr; s.cp.reports = [(4, 0x105, 0x77), (6, 1, 1)] ∧ s.cp.hung = false ∧ s.gang? 4 = some gr ∧ gr.firstFatal = none ∧
      s.time.toNat < gr.b.toNat) ∧
    (let k := { gr with b := 300, firstFatal := some (1, 2), fatals := 1 }; let s := rep0 [(4, 0x105, 0x77)] k; s.gang? 4 = some k ∧ k.firstFatal = some (1, 2) ∧ k.b.toNat ≤ s.time.toNat) ∧
    (let s := told 192 (.brim 600 1600) (bG gr run1 {}); TellsTile s s.arg.n (sysP 192 (.brim 600 1600)) (.brim 600 1600) ∧ s.admits s.arg.n = true) ∧
    (let s := bG gr run1 {}; s.gang? 4 = some gr ∧ gr.state = .running ∧ s.time.toNat < gr.b.toNat ∧ 192 ∈ gr.tiles) := by
  refine ⟨?_, fun w => ⟨tellsTile ?_, ?_⟩, ?_, ?_, ?_, ?_, ⟨tellsTile ?_, ?_⟩, ?_⟩
  all_goals (try revert w)
  all_goals repeat' first | decide +kernel | constructor
theorem wit_BrimDeadlineAndWake : (brim 300 900 id { n := 1 }).brimDue 1 = true ∧
    (let s := brim 300 900 (fun t => t.modLr fun r => { r with brimFired := true }) { n := 1 };
      s.divertDue 1 = true ∧ (s.tile 1).blk.lr.bent ≠ 0 ∧ ((s.tile 1).ctx 2).active = true ∧ ((s.tile 1).ctx 2).diverted = false ∧ ((s.tile 1).ctx 1).active = false) ∧
    (let s := brim 300 400 id { n := 1 }; s.deadlineDue 1 = true ∧ ((s.tile 1).ctx 0).active = true) ∧
    (let s := brim 700 900 id { n := 1, i := 2 }; ((s.tile s.arg.n).ctx s.arg.i).run = .waiting (.park 400 4) ∧ (400 : Word) ≠ 0 ∧ (400 : Word).toNat ≤ (s.timeAt s.arg.n).toNat ∧
      s.admits s.arg.n = true) := by
  refine ⟨brimDue_of (by decide +kernel) (by decide +kernel) (by decide +kernel), ?_, ⟨deadlineDue_of (by decide +kernel) (by decide +kernel) (by decide +kernel), ?_⟩,
    ?_, ?_, timeAt_late _ (by decide +kernel) (by decide +kernel), ?_⟩
  all_goals repeat' first | decide +kernel | constructor
theorem wit_ReleasePhases : (∀ b : Bool, let k := { gang0 .placed with loaded := true }; let s := { arg0 (onGang k w0) { n := 4 } with net := if b then [sysP 193 (.masks 4 0x8001 1)] else [] };
      s.gang? 4 = some k ∧ k.state = .placed ∧ k.loaded = true ∧ s.masking 4 = b) ∧ (gang0 .placed).loaded = false ∧
    (let s := told 193 (.masks 4 0x8001 1) (bG gr unst {}); let x := s.tile s.arg.n; TellsTile s s.arg.n (sysP 193 (.masks 4 0x8001 1)) (.masks 4 0x8001 1) ∧ x.blk.lr.gang = some 4 ∧
      x.blk.lr.started = false ∧ x.vol.failed = false ∧ x.vol.halted = false ∧ x.vol.replay = none) ∧
    (let s := brim 300 900 (fun t => t.modLr fun r => { r with brimFired := true, bent := 0 }) { n := 1 };
      s.divertDue s.arg.n = true ∧ (s.tile s.arg.n).blk.lr.bent = 0 ∧ ((s.tile s.arg.n).ctx 2).active = true ∧ ((s.tile s.arg.n).ctx 2).diverted = false) := by
  refine ⟨?_, ?_, ⟨tellsTile ?_, ?_⟩, ?_⟩
  all_goals repeat' first | decide +kernel | apply And.intro
def ranks (s : State) : State := [(0, 0), (1, 1), (192, 2), (193, 3)].foldl (fun s e => s.modTile e.1 fun t => t.modLr fun r => { r with rank := e.2 }) s
def swS (k : Gang) (f : Tile → Tile) (a : EvArg) : State := ranks (bG k (fun t => f (run1 t)) a)
def swt (t : Tile) : Tile := t.modVol fun v => { v with switched := true }
def gOut : Gang := gang0 .switchedOut
def outS : State :=
  let s := bG gOut (fun t => t.modLr fun r => { r with gang := none }) { n := 4 }
  { s with dev := [0, 1, 2, 3].foldl (fun m r => Mem.write m (0x40000000 + 0x220000 * r + 7) [0x80]) [], cp := { s.cp with saves := [0, 1, 2, 3].map fun r => (4 * 65536 + r, (run1 (Tile.reset 0)).blk) } }
/-- Tile 192 is saved; the others have been, if `all`. -/
def saving (b w all : Bool) : State := four (fun t => t.modVol fun v => { v with saved := all && t.blk.lr.rank != 2, written := w && t.blk.lr.rank == 2 })
  (swS (gang0 .switching) swt { n := 192, b := b })
theorem wit_GangsAreSwitched : (∀ b : Bool, let s := swS gr id { n := 4, w := 30000, b := b };
      s.gang? s.arg.n = some gr ∧ gr.state = .running ∧ s.cp.hung = false ∧ s.arg.j = 0 ∧ s.arg.b = b ∧ gr.lrec.savb ≠ 0 ∧ s.time.toNat + 20000 ≤ s.arg.w.toNat ∧
      ¬ (gr.b.toNat ≤ s.arg.w.toNat ∧ s.arg.w.toNat < gr.d.toNat) ∧ (List.range gr.tiles.length).all (fun i => (gr.area i).isSome) = true) ∧
    (let s := told 192 (.switchAt 4 30000) (swS gr id { j := 1 }); TellsTile s s.arg.n (sysP 192 (.switchAt 4 30000)) (.switchAt 4 30000) ∧ s.arg.j ≠ 0 ∧
      (s.tile s.arg.n).vol.failed = false ∧ (s.tile s.arg.n).blk.lr.gang = some 4) ∧
    (let k := { gr with switchAt := some 450 }; let s := swS k (fun t => t.modVol fun v => { v with switchAt := some 450 }) { n := 4 };
      s.gang? s.arg.n = some k ∧ k.state = .running ∧ k.switchAt.isSome = true ∧ s.switchDue 192 = true ∧ 192 ∈ k.tiles ∧
      (s.tile 192).vol.failed = false ∧ (s.tile 192).vol.replay = none ∧ s.brimDue 192 = false ∧ s.divertDue 192 = false) ∧
    (∀ b w all : Bool, let s := saving b w all; CanSave s 4 (gang0 .switching) (0x40000000 + 0x440000) ∧ s.arg.b = b ∧ (s.tile s.arg.n).vol.written = w ∧ s.cp.hung = false ∧
      (all = false → 193 ∈ (gang0 .switching).tiles ∧ (s.tile 193).vol.saved = false) ∧
      ∀ y ∈ (gang0 .switching).tiles, (s.tile y).vol.saveFault = false ∧ (all = true → y ≠ s.arg.n → (s.tile y).vol.saved = true)) ∧
    (let s := outS; let r := gOut.lrec; s.gang? s.arg.n = some gOut ∧ s.cp.hung = false ∧ s.mg.halts = [] ∧ s.time.toNat < gOut.d.toNat ∧ r.gxo + r.gw ≤ 192 ∧
      (∀ x ∈ gOut.tiles, s.tileFree x = true) ∧ gOut.area 3 = some (0x40000000 + 0x660000) ∧ (Tbl.look s.cp.saves (4 * 65536 + 3)).isSome = true) ∧
    (∀ n, n < gOut.lrec.gw * gOut.lrec.gh → ∃ a, gOut.area n = some a ∧ (Mem.read outS.dev (a + 7)).getLsbD 7 = true) ∧
    (∀ b : Bool, let k := gang0 .saveIncomplete; let s := swS k swt { n := 4, b := b }; s.gang? s.arg.n = some k ∧ k.state = .saveIncomplete) := by
  refine ⟨?_, ⟨tellsTile (by decide +kernel), ?_⟩, ⟨?_, ?_, ?_, switchDue_of (t := 450) (by decide +kernel) (by decide +kernel) (by decide +kernel), ?_⟩,
    fun b w all => ⟨⟨?_, ?_, ?_, ?_, ?_, ?_⟩, ?_⟩, ?_, fun n h => ⟨0x40000000 + 0x220000 * n, ?_⟩, ?_⟩
  case refine_15 =>
    have h4 : n < 4 := h
    exact (by decide +kernel : ∀ m : Fin 4, gOut.area m.val = some (0x40000000 + 0x220000 * m.val) ∧
      (Mem.read outS.dev (0x40000000 + 0x220000 * m.val + 7)).getLsbD 7 = true) ⟨n, h4⟩
  all_goals (try revert b w all)
  all_goals repeat' first | decide +kernel | constructor

/-! ### Arrivals and answers at a core, owners off the wafer -/

def msg3 : Msg := { cls := 3, long := true, payload := (List.range 128).map fun i => BitVec.ofNat 8 (i + 1), src := 1, tcx := 15, spawn := false, anum := 4, seq := 0, ctx := 2, tsn := 2 }
def pk (b : Body) (cls seq : Nat) : Pkt := { id := 3, src := .pool 1, dst := .pool 0, cls := cls, seq := seq, body := b, stage := .arrived, pcn := 0, mask := 4, bytes := 8, rel := none }
/-- A packet and a later one of the same source have come in at tile 0. -/
def came (p : Pkt) (f : Tile → Tile) : State :=
  let s := (bG gr id { n := 0, i := 3 }).modTile 0 fun t => f { run1 t with pool := Mem.write [] 128 ((List.range 300).map fun i => BitVec.ofNat 8 (37 * i + 11)) }
  { s with net := [{ p with id := 9, seq := 77 }, p] }
def req0 (op : MemOp) : Req := { id := 12, src := 1, ctx := 2, tsn := 2, op := op, owner := .pool 0, jrn := some 5, out := none, addr := 0x4000000000000400, seq := 0, rel := none, part := 0 }
def note : Notice := { ctx := 0, tag := 9, ans := 1, asid := 0, gen := 0 }
def upcl (c : Ctx) : Ctx := { c with ups := BitVec.ofNat 64 (9 * 65536 + 1), run := .waiting (.park 0 2) }
theorem inOrder (p : Pkt) (f : Tile → Tile) (h1 : (came p f).arrival (.pool 0) = some p) (h2 : (came p f).admits 0 = true)
    (h3 : turnOf (recvNext ((came p f).tile 0).blk.ni.recv (ownerCode p.src) p.cls) p.seq = .now)
    (h4 : (recvStep ((came p f).tile 0).blk.ni.recv (ownerCode p.src) p.cls).isSome = true) : InOrder (came p f) 0 p := ⟨h1, h2, h3, h4⟩
def reqP (op : MemOp) : Pkt := pk (.req (req0 op)) 6 0
theorem wit_ArrivalsAreTakenIn : (InOrder (came (pk (.msg msg3) 3 0) id) 0 (pk (.msg msg3) 3 0) ∧ msg3.spawn = false) ∧
    (let p := pk (.msg msg3) 3 5; let s := came p fun t => t.modNi fun k => { k with recv := [{ peer := 1, cls := 3, next := 6, una := 0 }] };
      s.arrival (.pool s.arg.n) = some p ∧ s.admits s.arg.n = true ∧ turnOf (recvNext (s.tile s.arg.n).blk.ni.recv (ownerCode p.src) p.cls) p.seq = .dup) ∧
    InOrder (came (pk (.close 3) 3 0) id) 0 (pk (.close 3) 3 0) ∧
    (let p := pk (.msg spawnMsg) 3 0; let g := fun t : Tile => t.modLr fun r => { r with brimFired := true };
      InOrder (came p id) 0 p ∧ spawnMsg.spawn = true ∧ ((came p id).tile 0).blk.lr.brimFired = false ∧ (came p id).brimDue 0 = false ∧ InOrder (came p g) 0 p ∧ ((came p g).tile 0).blk.lr.brimFired = true) ∧
    (let p := pk (.notice note) 1 0; InOrder (came p id) 0 p ∧ (came p id).arg.b = false ∧ ((came p id).tile 0).vol.notices.length < 8) ∧
    (let s := arg0 (came (pk (.close 3) 3 0) fun t => (t.modVol fun v => { v with notices := [note] }).modCtx 0 upcl) { b := true }; let x := (s.tile s.arg.n).ctx note.ctx;
      s.arg.b = true ∧ s.alive s.arg.n = true ∧ x.killed = false ∧ (s.tile s.arg.n).vol.notices = [note] ∧ note.asid.toNat = (s.asidGen s.arg.n).1 ∧ note.gen.toNat = (s.asidGen s.arg.n).2 ∧ fld x.ups 31 16 = note.tag.toNat ∧
      x.ans = 0 ∧ x.upGone = false) ∧
    (let x := (came (reqP (.pop 1)) id).tile 0; InOrder (came (reqP (.read [(160, 0), (304, 16)] 16)) id) 0 (reqP (.read [(160, 0), (304, 16)] 16)) ∧
      (∀ e ∈ [(160, 0), (304, 16)], x.refuses false e.1 16 = false) ∧
      InOrder (came (reqP (.write [(160, [1, 2, 3, 4])])) id) 0 (reqP (.write [(160, [1, 2, 3, 4])])) ∧ x.refuses true 160 4 = false ∧
      InOrder (came (reqP (.write [(160, [1]), (8, [4, 5])])) id) 0 (reqP (.write [(160, [1]), (8, [4, 5])])) ∧ x.refuses true 8 2 = true ∧
      InOrder (came (reqP (.atomic .cas false 160 3 4)) id) 0 (reqP (.atomic .cas false 160 3 4)) ∧ x.refuses true 160 8 = false) ∧
    InOrder (came (pk (.xwrite 256 (List.replicate 8 7) 2 2) 4 0) id) 0 (pk (.xwrite 256 (List.replicate 8 7) 2 2) 4 0) := by
  repeat' first | decide +kernel | apply And.intro | apply inOrder

theorem wit_RefusedAccessesAndClosedChannels : (∀ l ∈ [[], [{ peer := 1, cls := 3, next := 0, una := 0 }]], let p := pk (.close 3) 3 0; let s := came p fun t => t.modNi fun k => { k with recv := l };
      s.arrival (.pool 0) = some p ∧ s.admits 0 = true ∧ (s.tile 0).blk.ni.recv = l ∧ recvNext l (ownerCode p.src) p.cls = p.seq) ∧
    (let x := (came (reqP (.pop 1)) id).tile 0; (∀ op ∈ [MemOp.read [(160, 0), (8, 16)] 16, .stampAdd [(160, 0, 5), (8, 1, 5)] 3 9, .atomic .cas false 8 3 4], (came (reqP op) id).arrival (.pool 0) = some (reqP op)) ∧
      x.refuses false 8 16 = true ∧ x.refuses true 8 8 = true) := by
  decide +kernel

def rpl (f : Reply → Reply) : Reply := f { jrn := none, out := some 7, ctx := 2, tsn := 2, data := (List.range 16).map fun i => (i, BitVec.ofNat 8 (200 + i)), pop := none, refused := none, seq := 5 }
def rep1 (f : Reply → Reply) : Body := .reply (rpl f)
def q0 (op : MemOp) (out jrn : Option Nat) : Req := { id := 12, src := 0, ctx := 2, tsn := 2, op := op, owner := .slice 3, jrn := jrn, out := out, addr := 0x8000000000000400, seq := 5, rel := none, part := 0 }
def rd0 : MemOp := .read [(0x100, 0)] 8
def out7 (h : Land) : Outs := { id := 7, gs := [4], vs := [6], how := h, kind := .dev, need := 1, got := [], acq := none, dropped := [] }
def jrn5 : JEntry := { idx := 3, id := 5, ctx := 2, tsn := 2, parts := 1, out := none, refused := none }
def withReq (q : Req) (o : Outs) (t : Tile) : Tile :=
  (t.modNi fun k => { k with reqs := [q], journal := [jrn5] }).modCtx 2 fun c => { c with tsn := 2, run := .ready, outs := [o] }
/-- The answer `b` of slice 3 has come in at tile 0, which waits for it. -/
def repS (b : Body) (q : Req) (o : Outs) (l : Bool) : State := arg0 (came { pk b 6 0 with src := .slice 3 } (withReq q o)) { i := 3, b := l }
theorem answered {s : State} {p : Pkt} {r : Reply} {q : Req} (h1 : s.arrival (.pool 0) = some p) (h2 : p.body = .reply r)
    (h3 : s.admits 0 = true) (h4 : s.reqOf 0 p.src r = some q) : Answered s 0 p r q := ⟨h1, h2, h3, h4⟩
def ret0 : Pkt := { pk (.msg { msg3 with src := 0 }) 3 9 with id := 20, src := .pool 0, dst := .pool 1, stage := .queued }
def ackS (no : Bool) : State := came (pk (.ack 3 9 no) 6 0) fun t => (t.modNi fun k => { k with rtx := [ret0] }).modCtx 2 fun c => { c with tsn := 2 }
def pendS : State := (arg0 (came (pk (.popAck 5) 6 0) fun t => { t with blk := { t.blk with hold := 2 } }) {}).modTile 0 fun t => (t.modLr fun r => { r with trv := 64 }).modCtx 2
  fun c => { c with run := .waiting .misses, pc := 30, apnd := [{ cause := 0x17, tra := 0x99, jix := some 9 }, { cause := 4, tra := 1, jix := none }] }
theorem wit_AnswersLand : (∀ h ∈ [Land.scalar 4 8 false, Land.vec 6], let q := q0 rd0 (some 7) none; let s := repS (rep1 id) q (out7 h) true; let x := (s.tile s.arg.n).ctx q.ctx;
      s.arg.b = true ∧ s.arrival (.pool 0) = some { pk (rep1 id) 6 0 with src := .slice 3 } ∧ s.reqOf 0 (.slice 3) (rpl id) = some q ∧
      s.admits 0 = true ∧ q.op.reads = true ∧ (rpl id).refused = none ∧ (rpl id).pop = none ∧ x.outs.find? (fun o => o.id == 7) = some (out7 h) ∧ (out7 h).need = 1 ∧
      x.discards (out7 h) = false ∧ (out7 h).dropped.contains 4 = false) ∧
    (let q := q0 rd0 (some 7) none; Answered (repS (rep1 id) q (out7 (.vec 6)) true) 0 { pk (rep1 id) 6 0 with src := .slice 3 } (rpl id) q) ∧
    (let o := { out7 (.fixed [(3, 77)] none) with need := 0 }; let s := arg0 (repS (rep1 id) (q0 rd0 none none) o false) { i := 7, j := 2 };
      s.arg.b = false ∧ s.alive s.arg.n = true ∧ ((s.tile s.arg.n).ctx s.arg.j).outs.find? (fun o => o.id == s.arg.i) = some o ∧ o.dropped.contains 3 = false ∧ ((s.tile s.arg.n).ctx s.arg.j).discards o = false) ∧
    (let b := rpl fun r => { r with jrn := some 5, out := none }; let c := rpl fun r => { r with jrn := some 5, out := none, refused := some (2, 0x77) };
      let q := q0 (.write [(0x100, [1])]) none (some 5); let s := repS (.reply b) q (out7 (.vec 6)) false;
      Answered s 0 { pk (.reply b) 6 0 with src := .slice 3 } b q ∧ (s.tile 0).blk.ni.journal.find? (fun e => e.id == 5) = some jrn5 ∧ b.refused = none ∧ jrn5.parts = 1 ∧ jrn5.out = none ∧ jrn5.refused = none ∧ q.out = none ∧ q.line = none ∧
      Answered (repS (.reply c) q (out7 (.vec 6)) false) 0 { pk (.reply c) 6 0 with src := .slice 3 } c q ∧ c.refused = some (2, 0x77)) ∧
    (∀ no ∈ [false, true], let s := ackS no; s.arrival (.pool 0) = some (pk (.ack 3 9 no) 6 0) ∧ s.admits 0 = true ∧
      (s.tile 0).blk.ni.rtx.find? (fun q => q.dst == .pool 1 && q.cls == 3 && q.seq == 9) = some ret0 ∧ ret0.body.owner = some (2, 2)) ∧
    (let s := came (pk (.popAck 5) 6 0) id; s.arrival (.pool s.arg.n) = some (pk (.popAck 5) 6 0) ∧ s.admits s.arg.n = true) ∧
    (let s := came (pk (.optDone 2 2 (32768, 4)) 6 0) id; s.arrival (.pool s.arg.n) = some (pk (.optDone 2 2 (32768, 4)) 6 0) ∧ s.admits s.arg.n = true) ∧
    (let s := pendS; let x := s.tile s.arg.n; let c := x.ctx x.blk.hold;
      c.asyncDue = true ∧ c.apnd = [{ cause := 0x17, tra := 0x99, jix := some 9 }, { cause := 4, tra := 1, jix := none }] ∧ x.vol.halted = false ∧ x.vol.failed = false ∧
      x.vol.switched = false ∧ s.unheld s.arg.n = true ∧ s.arg.n < 30720 ∧ (0x17 : BitVec 8) ≠ 3 ∧ x.blk.lr.trv ≠ 0) := by
  repeat' first | decide +kernel | constructor | apply answered
def rqo (o : Owner) (op : MemOp) : Req := { req0 op with owner := o, seq := 5, part := 2 }
def owp (o : Owner) (op : MemOp) : Pkt := { pk (.req (rqo o op)) 6 5 with dst := o }
def grad0 (l : List (Nat × Nat × BitVec 16 × Nat × Nat)) : GradQ := { typ := 2, depth := 32, window := 4, pushers := [1, 7], prt := 2, base := 0x4000, tail := 33, recs := l, popped := [] }
/-- A request has come in at a slice or port, which has served its source up to 5. -/
def ow (o : Owner) (op : MemOp) (a : EvArg) : State :=
  let s := onGang gr w0
  { s with net := [owp o op], dev := Mem.write [] 0x400 (List.replicate 200 7), arg := { a with i := if a.i = 0 then 3 else a.i }
           rim := { s.rim with dedup := [(dedupKey o 1, { done := 5, held := [] })], comb := [(3, [{ src := 9, op := .add, w32 := true, addr := 0x408, x := 5 }])]
                               grad := [(27, grad0 [(7, 3, 2, 16, 32)]), (3, grad0 [])]
                               sweep := [(16 * 12, [(0x400, 128, 5)])] } }
theorem atOwner (o : Owner) (op : MemOp) (a : EvArg) (h1 : (ow o op a).arrival o = some (owp o op))
    (h2 : turnOf ((ow o op a).dedupOf o 1).done 5 = .now) : AtOwner (ow o op a) o (owp o op) (rqo o op) := ⟨h1, rfl, h2⟩
def sl : Owner := .slice 3
theorem oneGranule {a : Nat} {bs : List Byte} (h : a % 64 + bs.length ≤ 64) : OneGranule [(a, bs)] := ⟨a / 64, by simpa using h⟩
theorem atSlice {op : MemOp} {a : EvArg} (h : AtOwner (ow sl op a) sl (owp sl op) (rqo sl op)) : AtSlice (ow sl op a) 3 (owp sl op) (rqo sl op) :=
  ⟨h, rfl, rfl⟩
def rdo : MemOp := .read [(0x408, 0)] 16
/-- A load from a page of a Heron head (R351). -/
def hreq : Req := { rqo sl rdo with heron := true }
def begunS (els : List (Nat × List Byte)) : State :=
  (ow sl rdo { n := 3, i := 1, b := true }).modRim fun m => { m with bank := [(begunKey 3, [.access (rqo sl (.write els)) 0])] }
/-- An optimiser core runs. -/
def opt (s : State) : State := s.modTile rimBase fun t => t.modLr fun r => { r with started := true }
theorem wit_OwnersServe : (AtSlice (ow sl rdo { n := 3 }) 3 (owp sl rdo) (rqo sl rdo) ∧
      (AtSlice (ow sl (.write [(0x408, [1, 2])]) { n := 3 }) 3 (owp sl (.write [(0x408, [1, 2])])) (rqo sl (.write [(0x408, [1, 2])])) ∧ OneGranule [(0x408, [(1 : Byte), 2])]) ∧
      (AtSlice (ow sl (.write [(0x43F, [1, 2])]) { n := 3 }) 3 (owp sl (.write [(0x43F, [1, 2])])) (rqo sl (.write [(0x43F, [1, 2])])) ∧ firstGranule [(0x43F, [1, 2])] = ([(0x43F, [1])], [(0x440, [2])])) ∧
      AtSlice (ow sl (.atomic .max true 0x408 3 4) { n := 3 }) 3 (owp sl (.atomic .max true 0x408 3 4)) (rqo sl (.atomic .max true 0x408 3 4)) ∧
      AtSlice (ow sl (.reduce .fadd true 0x408 3) { n := 3 }) 3 (owp sl (.reduce .fadd true 0x408 3)) (rqo sl (.reduce .fadd true 0x408 3)) ∧
      AtSlice (ow sl rdo { n := 3, j := 1 }) 3 (owp sl rdo) (rqo sl rdo)) ∧
    (AtSlice (ow sl (.pop 3) { n := 3 }) 3 (owp sl (.pop 3)) (rqo sl (.pop 3)) ∧ (ow sl (.pop 3) { n := 3 }).gradQ 3 = some (grad0 []) ∧
      AtSlice (ow sl (.pop 27) { n := 3 }) 3 (owp sl (.pop 27)) (rqo sl (.pop 27)) ∧ (ow sl (.pop 27) { n := 3 }).gradQ 27 = some (grad0 [(7, 3, 2, 16, 32)]) ∧
      (grad0 []).prt = (rqo sl (.pop 3)).part) ∧
    (let s := { ow sl rdo { n := 3 } with net := [{ owp sl rdo with body := .req hreq }] };
      AtOwner s sl { owp sl rdo with body := .req hreq } hreq ∧ hreq.heron = true ∧ (s.bank 3 hreq.op.unit).length < 32 ∧ s.sliceHeld 3 hreq.src (some (bankKey 3 hreq.op.unit)) true = false) ∧
    (let s := begunS [(0x440, [2])]; s.arg.b = true ∧ s.arg.i = 1 ∧ s.begun 3 = [.access (rqo sl (.write [(0x440, [2])])) 0] ∧ OneGranule [(0x440, [(2 : Byte)])]) ∧
    (let s := ow sl (.pop 3) { n := 3, b := true }; s.arg.b = true ∧ s.arg.i ≠ 1 ∧ s.comb 3 = [{ src := 9, op := .add, w32 := true, addr := 0x408, x := 5 }]) ∧
    (AtOwner (ow (.port 2) rdo { n := 2 }) (.port 2) (owp (.port 2) rdo) (rqo (.port 2) rdo) ∧
      AtOwner (ow (.port 2) (.write [(0x408, [1])]) { n := 2, j := 1 }) (.port 2) (owp (.port 2) (.write [(0x408, [1])])) (rqo (.port 2) (.write [(0x408, [1])]))) ∧
    (∀ typ : Fin 3, let s := ow sl (.push 27 typ.val 4 16 1) { n := 3 }; let g := grad0 [(7, 3, 2, 16, 32)];
      AtSlice s 3 (owp sl (.push 27 typ.val 4 16 1)) (rqo sl (.push 27 typ.val 4 16 1)) ∧ s.gradQ 27 = some g ∧ g.window = 4 ∧ (rqo sl (.pop 3)).src ∈ g.pushers ∧ g.prt = 2 ∧
        g.prt = (rqo sl (.pop 3)).part) ∧
    (let s := ow sl (.pop 3) { n := 3, i := 75, b := true, w := BitVec.ofNat 64 (deviceEnd - 128 * 16), nums := [255, 16, 1, 15, 5, 6] }; s.arg.b = true ∧ s.arg.nums = 255 :: 16 :: 1 :: 15 :: [5, 6] ∧
      255 < 256 ∧ 16 ≤ 16 ∧ 16 ≤ 4096 ∧ 1 ≤ 1 ∧ [5, 6].length ≤ 16 / 1 ∧ s.arg.i < 2048 ∧ s.arg.i % 24 = s.arg.n ∧ s.arg.w.toNat + 128 * 16 ≤ deviceEnd) ∧
    (let s := opt (ow sl (.pop 3) { n := 4, w := 0x478, x := 8 }); let prt := (s.queue gr.queue).prt.toNat; s.gang? s.arg.n = some gr ∧ s.optimiserRuns = true ∧ s.arg.b = false ∧ s.arg.w.toNat % 8 = 0 ∧
      (0x400, 128, 5) ∈ s.regions prt ∧ 0x400 ≤ s.arg.w.toNat ∧ s.arg.w.toNat + 8 ≤ 0x400 + 128 ∧ s.arg.w.toNat + s.arg.x.toNat ≤ deviceEnd ∧ ((Tbl.get s.rim.sweep (16 * sliceOf 0x478 + prt) []).filter (fun e => e.1 != 0x478)).length < 16) ∧
    (let s := ow sl (.pop 3) { w := BitVec.ofNat 64 (deviceEnd - 2), i := 2, b := true, bytes := [1, 2] }; s.arg.b = true ∧ s.arg.i ≠ 1 ∧ s.arg.w.toNat + s.arg.bytes.length ≤ deviceEnd) ∧
    (let s := (ow sl (.pop 3) { n := 32768 }).modRim fun m => { m with grad := [(3, { grad0 [] with popped := [(32768, 7, 2, 4)] })] };
      32768 ≤ s.arg.n ∧ s.rim.failedCores.contains s.arg.n = false ∧ (3, { grad0 [] with popped := [(32768, 7, 2, 4)] }) ∈ s.rim.grad) := by
  refine ⟨⟨?_, ⟨?_, oneGranule (by decide)⟩, ⟨?_, ?_⟩, ?_, ?_, ?_⟩, ⟨?_, ?_, ?_, ?_, ?_⟩, ⟨⟨?_, ?_, ?_⟩, ?_⟩, ⟨?_, ?_, ?_, oneGranule (by decide)⟩, ?_, ?_, fun typ => ⟨atSlice (atOwner _ _ _ ?_ ?_), ?_⟩, ?_⟩
  all_goals (try revert typ)
  all_goals repeat' first | decide +kernel | apply And.intro | apply atSlice | apply atOwner

theorem wit_PushesAreTaken : ∀ typ : Fin 3, let s := ow sl (.push 27 typ.val 4 16 1) { n := 3 };
    s.arg.b = false ∧ s.sliceHeld 3 (rqo sl (.pop 3)).src none true = false ∧ s.writesStable (rqo sl (.pop 3)).src typ.val 1 = false := by decide +kernel

/-! ### Engines, the matrix array, barriers -/

def dA (x : Nat) : Word := BitVec.ofNat 64 (2 * 2 ^ 62 + x)
def pgD : Word × Word := (BitVec.ofNat 64 (2 * 2 ^ 62), BitVec.ofNat 64 (2 ^ 63 + 2 ^ 61 + 2 ^ 60 + 2 ^ 59))
def cpy (src dst : Word) (lines st : Nat) : CopyOp :=
  { idx := 4, id := 7, ctx := 2, tsn := 2, tok := 9, dst := dst, src := src, rows := 2, len := 256, dstep := 512, sstep := 256, scope := 0, rel := false, ovl := false, lines := lines
    st := st, slot := none, tag := none }
/-- Tile 0 with one copy; context 2 waits for its token. -/
def cS (c : CopyOp) : State :=
  arg0 ((bG gr id {}).modTile 0 fun t => ((({ t with pool := Mem.write t.pool 1024 (List.replicate 600 9) }.modEn fun e => { e with copies := [c] }).modVol fun v =>
    { v with tlbC := { ents := [(0, pgD)], order := [0], ptr := 0, pins := [] } }).modCtx 2 fun x => { x with run := .ready, outs := [{ out7 (.fixed [] none) with gs := [9], vs := [] }] }).modLr
      fun r => { r with xb := 128, pres := 8 }) { n := 0, i := 4 }
def qry (left : Nat) : Query :=
  { idx := 1, id := 7, ctx := 2, tok := 9, base := 0x8000000000000000, hor := 100, dim := 64, scl := 0x3f800000, q := List.replicate 128 0x3c, k0 := 0, area := 2048, total := 3, left := left
    emask := 0, refused := false, scope := 0 }
def qS (left : Nat) (bank : List HeronEntry) (a : EvArg) : State :=
  arg0 (((bG gr id {}).modTile 0 fun t => (t.modEn fun e => { e with queries := [qry left] }).modCtx 2 fun x =>
    { x with run := .ready, outs := [{ out7 (.fixed [] none) with gs := [9], vs := [] }] }).setBank 3 6 bank) a
def rh (id src : Nat) (op : MemOp) : Req := { id := id, src := src, ctx := 2, tsn := 2, op := op, owner := .slice 3, jrn := some 5, out := none, addr := 0, seq := 5, rel := none, part := 2 }
/-- An append of 64 values to rows of one page, of which the key row's is written first. -/
def appR : Req := { rh 21 1 (.append 6 500 0 []) with heron := true }
def app1 (rows : List (Nat × List Byte)) : HeronEntry := .append appR 500 0x8000000000000000 rows 0
def rdR : Req := { rh 23 1 (.read [(0x8000, 0)] 8) with heron := true }
/-- A scan of page 0, with `rows` row scans done. -/
def scn1 (rows : Nat) : HeronEntry := .scan (rh 22 0 (.scan 7 0x8000 0 0)) 7 0x8000 0 0 rows (Triple.start 64)
theorem lineReady {s : State} {c : CopyOp} {p q : LinePlace} (h1 : s.copyOf s.arg.n s.arg.i = some c) (h2 : s.copyRuns s.arg.n c = true)
    (h3 : s.linePlace s.arg.n false (c.srcAt c.lines) = p) (h4 : s.linePlace s.arg.n true (c.dstAt c.lines) = q) (h5 : s.arg.b = false) : LineReady s c p q := ⟨h1, h2, h3, h4, h5⟩
theorem lineAnswered {s : State} {p : Pkt} {r : Reply} {q : Req} {c : CopyOp} (h1 : s.arg.b = true) (h2 : s.arrival (.pool s.arg.n) = some p) (h3 : p.body = .reply r)
    (h4 : s.admits s.arg.n = true) (h5 : s.reqOf s.arg.n p.src r = some q) (h6 : q.line = some c.idx) (h7 : s.copyOf s.arg.n c.idx = some c) (h8 : c.st = 0) :
    LineAnswered s p r q c := ⟨h1, ⟨h2, h3, h4, h5⟩, h6, h7, h8⟩
theorem tokenWaits {s : State} {core c id : Nat} {d : RegNo} (o : Outs) (h1 : s.admits core = true) (h2 : ((s.tile core).ctx c).discards o = false)
    (h3 : ((s.tile core).ctx c).outs.find? (fun o => o.id == id) = some o) (h4 : o.dropped.contains d = false) : TokenWaits s core c id d := ⟨h1, o, h3, h4, h2⟩
def o9 : Outs := { out7 (.fixed [] none) with gs := [9], vs := [] }
/-- The answer to a line's request 40 has come. -/
def lineQ (op : MemOp) : Req := { q0 op none none with id := 40, owner := .slice 0, line := some 4 }
def lineP (no : Bool) : Pkt := { pk (.reply (rpl fun r => { r with out := none, jrn := none, refused := if no then some (2, 0x77) else none })) 6 0 with src := .slice 0 }
def lineS (op : MemOp) (c : CopyOp) (no : Bool) : State :=
  let s := (cS c).modTile 0 fun t => t.modNi fun k => { k with reqs := [lineQ op] }
  { s with net := [lineP no], arg := { n := 0, i := 3, b := true } }
/-- A page of a Belvis window. -/
def pgW : Word × Word := (BitVec.ofNat 64 (2 * 2 ^ 62), BitVec.ofNat 64 (2 ^ 63 + 2 ^ 61 + 2 ^ 60 + 2 ^ 59 + 2 ^ 56 + 2 * 2 ^ 52 + 5))
def winC (c : CopyOp) : State := (cS c).modTile 0 fun t => t.modVol fun v => { v with tlbC := { ents := [(0, pgW)], order := [0], ptr := 0, pins := [] } }
def isOn : RowScan → Bool
  | .on .. => true
  | .record _ => false
theorem wit_CopiesAndHeronUnitsRun : LineReady (cS (cpy 1024 2048 1 0)) (cpy 1024 2048 1 0) (.at (.own 1152)) (.at (.own 2176)) ∧
    (let c := cpy (dA 0x400) 2048 0 0; let s := cS c; LineReady s c (.at (.far (.slice 0) 0x400 false)) (.at (.own 2048)) ∧ ChannelFor s s.arg.n (.slice 0)) ∧
    (let c := cpy 1024 (dA 0x8000) 0 0; let s := cS c; LineReady s c (.at (.own 1024)) (.at (.far (.slice 0) 0x8000 false)) ∧ ChannelFor s s.arg.n (.slice 0)) ∧
    (let c := cpy 0x40000000 2048 0 0; LineReady (cS c) c (.fail 3) (.at (.own 2048))) ∧
    (let c := cpy (dA 0x400) (dA 0x8000) 0 0; LineReady (winC c) c (.window 2 5 0x400) (.window 2 5 0x8000)) ∧
    (let c := cpy (dA 0x400) 2048 0 0; let s := winC c; LineReady s c (.window 2 5 0x400) (.at (.own 2048)) ∧ c.ovl = false ∧ (s.tile 0).blk.lr.ord = false ∧ ChannelFor s s.arg.n (.belvis 2)) ∧
    (let c := { cpy (dA 0x400) 2048 0 0 with ovl := true }; LineReady (winC c) c (.window 2 5 0x400) (.at (.own 2048))) ∧
    (let c := cpy 1024 (dA 0x8000) 0 0; let s := winC c; LineReady s c (.at (.own 1024)) (.window 2 5 0x8000) ∧ ChannelFor s s.arg.n (.belvis 2)) ∧
    (∀ no : Bool, let c := { cpy (dA 0x400) 2048 0 0 with stage := .reading 40 }; let s := lineS (.read [(0x400, 0)] 128) c no;
      LineAnswered s (lineP no) (rpl fun r => { r with out := none, jrn := none, refused := if no then some (2, 0x77) else none }) (lineQ (.read [(0x400, 0)] 128)) c ∧
        s.linePlace s.arg.n true (c.dstAt c.lines) = .at (.own 2048)) ∧
    (∀ no : Bool, let c := { cpy 1024 (dA 0x8000) 0 0 with stage := .writing 40 };
      LineAnswered (lineS (.write []) c no) (lineP no) (rpl fun r => { r with out := none, jrn := none, refused := if no then some (2, 0x77) else none }) (lineQ (.write [])) c) ∧
    (let c := cpy 1024 2048 4 0; let s := cS c; s.copyOf s.arg.n s.arg.i = some c ∧ c.stage = .idle ∧ TokenWaits s s.arg.n c.ctx c.id c.tok ∧ c.total ≤ c.lines ∧
      s.unacked s.arg.n c.idx = 0) ∧
    (let c := cpy 1024 2048 1 2; let s := cS c; TokenWaits s s.arg.n c.ctx c.id c.tok ∧ c.st ≠ 0 ∧ c.st ≠ 5) ∧
    (let s := qS 2 [app1 [(0x8000, [1, 2, 3])]] { n := 3, i := 6 }; accessReady [] (s.bank s.arg.n s.arg.i) = some (app1 [(0x8000, [1, 2, 3])]) ∧ OneGranule [(0x8000, [(1 : Byte), 2, 3])]) ∧
    (let s := qS 2 [app1 [(0x8000, [1, 2, 3]), (0x8400, [4, 5])]] { n := 3, i := 6 }; accessReady [] (s.bank s.arg.n s.arg.i) = some (app1 [(0x8000, [1, 2, 3]), (0x8400, [4, 5])]) ∧
      firstGranule [(0x8000, [1, 2, 3]), (0x8400, [4, 5])] = ([(0x8000, [1, 2, 3])], [(0x8400, [4, 5])])) ∧
    (let s := qS 2 [.access rdR 0] { n := 3, i := 4 }; let s := s.setBank 3 4 [.access rdR 0]; accessReady [] (s.bank s.arg.n s.arg.i) = some (.access rdR 0)) ∧
    (∀ rows : Fin 2, let s := qS 2 [scn1 rows.val, .access rdR 3] { n := 3, i := 6 }; let x : Scanning := { r := rh 22 0 (.scan 7 0x8000 0 0), query := 7, page := 0x8000, k := 0, rows := rows.val, t := Triple.start 64 };
      s.arg.b = false ∧ s.scanNow (s.bank s.arg.n s.arg.i) = some x ∧ s.queryOf x.r.src x.query = some (qry 2) ∧ accessReady [] (s.bank s.arg.n s.arg.i) = some (.access rdR 3) ∧
        overdue [] (s.bank s.arg.n s.arg.i) = false) ∧
    (isOn (rowScan [] { qry 2 with hor := 5000 } 0x8000 0 6 0 (Triple.start 64) false) = true ∧ isOn (rowScan [] (qry 2) 0x8000 0 6 1 (Triple.start 64) true) = false) ∧
    (let q := rh 31 0 (.scan 7 0x8000 0 2); let r := rpl fun r => { r with out := none }; let p := { pk (.reply r) 6 0 with src := .slice 3 };
      let s := { (qS 2 [] { n := 0, i := 3, b := true }).modTile 0 (fun t => t.modNi fun k => { k with reqs := [q] }) with net := [p] };
      s.arg.b = true ∧ Answered s 0 p r q ∧ r.refused = none ∧ s.queryOf 0 7 = some (qry 2)) ∧
    (let s := qS 0 [] { n := 0, i := 1 }; (s.tile s.arg.n).blk.en.queries.find? (fun q => q.idx == s.arg.i) = some (qry 0) ∧ (qry 0).left = 0 ∧ (qry 0).refused = false ∧
      TokenWaits s s.arg.n (qry 0).ctx (qry 0).id (qry 0).tok) := by
  refine ⟨?_, ?_, ?_, ?_, ?_, ?_, ?_, ?_, fun no => ⟨lineAnswered ?_ ?_ ?_ ?_ ?_ ?_ ?_ ?_, ?_⟩, fun no => lineAnswered ?_ ?_ ?_ ?_ ?_ ?_ ?_ ?_, ?_, ?_, ⟨?_, oneGranule (by decide)⟩, ?_⟩
  all_goals (try revert no)
  all_goals (try unfold ChannelFor)
  all_goals repeat' first | decide +kernel | apply And.intro | apply lineReady | apply tokenWaits o9 | apply answered

def ent (seq : Nat) (c : ACmd) (st : Bool) : ACmdEntry := { seq := BitVec.ofNat 8 seq, ctx := 2, tsn := 2, cmd := c, lock := none, started := st, held := [], wt := WSlot.empty }
/-- Tile 0 with a queue of commands, at a cluster whose array it holds. -/
def aS (l : List ACmdEntry) (j : Nat) (b : Bool) : State :=
  arg0 (((bG gr id {}).modTile 0 fun t => (((t.modLr fun r => { r with part := 0x20021 }).modArr fun x => { x with queue := l, req := true }).modCtx 2
    fun x => { x with run := .ready, tsn := 2 })).modCluster 0 fun c => { c with holder := some 0, started := 3 }) { n := 0, j := j, b := b }
def exS (m : Nat → Nat) (pre : Bool) (run : Option (Nat × List (Nat × Nat × Nat))) : State :=
  arg0 (((List.range 16).foldl (fun s p => s.modTile (tileAt 0 p) fun t => (t.modLr fun r => { r with part := 0x20021 }).modArr fun a => { a with mx := some (1, 0, m p), mxBy := (2, 2) }) w0).modCluster
    0 fun c => { c with pre := pre, running := run }) { n := 0 }
theorem sends_transpose : ∀ p f, p < 16 → f < 16 → ((exS (fun _ => 1) true none).cluster 0).sends 1 p f = (f, p) := by
  intro p f hp hf
  exact (by decide +kernel : ∀ p f : Fin 16, ((exS (fun _ => 1) true none).cluster 0).sends 1 p.val f.val = (f.val, p.val)) ⟨p, hp⟩ ⟨f, hf⟩
theorem wit_TheArrayAndTheExchangeRun : (∀ c ∈ [ACmd.macc 1 0, .mfmt true 2, .mldw true 128 0, .mma 1 128 true false true], ∀ j ∈ [0, 1], let e := ent 4 c false; let s := aS [ent 3 (.mzero 0) true, e] j false;
      s.holds s.arg.n = true ∧ (s.tile 0).vol.failed = false ∧ (s.tile 0).blk.arr.queue.find? (fun e => !e.started) = some e ∧ (s.tile 0).toAbandon e = false ∧ (s.cluster (clusterOf 0)).started < 15) ∧
    (∀ b ∈ [false, true], let e := ent 3 (.mscl 1 0x40000000) true; let s := aS [e, ent 4 (.mzero 0) false] 0 b; (s.tile 0).blk.arr.queue = [e, ent 4 (.mzero 0) false] ∧ completes (s.tile 0).blk.arr.queue s.arg.j = some e ∧
      (s.tile 0).vol.failed = false ∧ e.cmd.dest = some 1 ∧ (s.cluster (homeCluster 0)).running = none) ∧
    (let s := aS [] 0 false; (s.cluster s.arg.n).holder = some 0 ∧ (s.tile (tileAt s.arg.n 1)).blk.arr.requesting = false) ∧
    (∀ p ∈ List.range 16, let s := exS (fun p => p % 2) false none; (s.tile (tileAt 0 p)).blk.arr.mx = some (1, 0, p % 2) ∧ s.mayExchange (tileAt 0 p) = true ∧ (s.tile (tileAt 0 p)).vol.replay = none ∧
      (s.cluster 0).running = none ∧ (s.cluster 0).post = false) ∧ 1 % 2 ≠ 0 % 2 ∧
    (∀ pre ∈ [false, true], ∀ p ∈ List.range 16, let s := exS (fun _ => 1) pre none; let x := s.tile (tileAt 0 p);
      x.blk.arr.mx = some (1, 0, 1) ∧ (s.cluster 0).running = none ∧ (x.blk.arr.acc 1).ifl = false ∧ (x.blk.arr.acc 0).ifl = false ∧ (s.cluster 0).pre = pre ∧ (s.cluster 0).post = false ∧ s.mayExchange (tileAt 0 p) = true ∧
      x.vol.replay = none ∧ x.vol.bounded = true) ∧
    (∀ p f q g, p < 16 → f < 16 → q < 16 → g < 16 →
      ((exS (fun _ => 1) true none).cluster 0).sends 1 p f = ((exS (fun _ => 1) true none).cluster 0).sends 1 q g → p = q ∧ f = g) ∧
    (let s := exS (fun _ => 1) false (some (1, (List.range 16).map fun p => (p, 1, 0))); s.arg.n < 1920 ∧ (s.cluster s.arg.n).running = some (1, (List.range 16).map fun p => (p, 1, 0)) ∧
      ∀ p ∈ List.range 16, (s.tile (tileAt s.arg.n p)).vol.failed = false ∧ (s.tile (tileAt s.arg.n p)).blk.arr.queue = []) := by
  refine ⟨?_, ?_, ?_, ?_, ?_, ?_, ?_, ?_⟩
  case refine_7 =>
    intro p f q g hp hf hq hg h
    rw [sends_transpose p f hp hf, sends_transpose q g hq hg] at h
    cases h; exact ⟨rfl, rfl⟩
  all_goals repeat' first | decide +kernel | apply And.intro

def dom (left : List Nat) (z c : Bool) : Domain := { left := left, odd := [], sample := [(0, 0), (1, 0), (192, 0), (193, 0)], zero := z, clear := c }
def bS (n : Nat) (d : Option Domain) (f : Tile → Tile) (k : Gang → Gang) (a : EvArg) : State :=
  bG (k { gr with doms := match d with | some d => [(n, d)] | none => [] }) (fun t => f ((run1 t).modSy fun y => { y with mem := 0x25, arr := 0x25 })) { a with i := n }
def kD (n : Nat) (d : Domain) : Gang := { gr with doms := [(n, d)] }
def prb (left : List Nat) : Probe := { tile := 1, ctx := 2, count := 0, left := left, sum := 5, black := false }
def kP (left : List Nat) : Gang := { gr with probes := [(5, [prb left])] }
def o5 : Outs := { o9 with how := .probe 5 }
def parked (t : Tile) : Tile := (t.modCtx 2 fun c => { c with run := .waiting (.park 0 2), outs := [o5] }).modCtx 0 fun c => { c with run := .idle }
theorem wit_BarriersComplete : (let s := bS 2 (some (dom [] true false)) id id { n := 4 }; let k := kD 2 (dom [] true false);
      s.gang? s.arg.n = some k ∧ k.state = .running ∧ (k.domain 2).left = [] ∧ s.allArrived k 2 = true ∧ (k.domain 2).zero = true) ∧
    (∀ n ∈ [0, 5], let s := bS n none id id { n := 193 }; s.arg.n < 40000 ∧ gr.state = .running ∧ (s.tile s.arg.n).blk.lr.gang = some 4 ∧ s.gang? 4 = some gr ∧ s.admits s.arg.n = true ∧ s.domainDone gr n = true ∧
      s.arg.n ∈ s.membersOf gr n) ∧
    (let s := bS 5 (some (dom [192] true true)) id id { n := 192 }; let k := kD 5 (dom [192] true true); s.gang? 4 = some k ∧ s.admits s.arg.n = true ∧ s.arg.n ∈ (k.domain 5).left) ∧
    (let s := bS 0 (some (dom [40003] true true)) id id { n := 40003, j := 4 }; let k := kD 0 (dom [40003] true true); 40000 ≤ s.arg.n ∧ s.gang? s.arg.j = some k ∧ k.state = .running ∧
      s.arg.n ∈ (k.domain 0).left) ∧
    (let s := bS 5 none parked (fun k => { k with probes := (kP [0, 1]).probes }) { n := 4 }; s.gang? s.arg.n = some (kP [0, 1]) ∧ Tbl.get (kP [0, 1]).probes 5 [] = [prb [0, 1]] ∧
      (prb [0, 1]).left = [0, 1] ∧ s.quiescent 0 = true ∧ s.admits 0 = true) ∧
    (let s := bS 5 none parked (fun k => { k with probes := (kP [192]).probes }) { n := 4 }; let p := prb [192]; s.gang? s.arg.n = some (kP [192]) ∧ p.left = [192] ∧ s.quiescent 192 = true ∧
      s.admits 192 = true ∧ s.admits p.tile = true ∧ ((s.tile p.tile).ctx p.ctx).outs.find? (fun o => o.how == .probe 5) = some o5 ∧
      ((s.tile p.tile).ctx p.ctx).outs.find? (fun q => q.id == o5.id) = some o5 ∧ o5.gs = [9] ∧ o5.dropped.contains 9 = false ∧ ((s.tile p.tile).ctx p.ctx).discards o5 = false) := by
  repeat' first | decide +kernel | apply And.intro

/-! ### Boundaries, repair, halts, packets and links -/

def lrc (d : Bool) (n : Nat) : LogRec :=
  { ucnt := 5, kind := .msg, rsm := false, ctx := 1, cls := 3, seq := 5, src := 1, aux := 0, data := List.replicate n 3, durable := d, pkt := some (pk (.msg msg3) 3 5), answer := some (.ack 3 5 false) }
/-- Tile 0 of a running launch, at a phase of a boundary, with its fen store. -/
def fb (ph : BPhase) (f : Tile → Tile) (g : Fen → Fen) : State :=
  ((bG gr id {}).modTile 0 fun t => f (((run1 t).modCt fun k => { k with dlb := 0x70000, dcnt := 4096, ivt := 7 }).modVol fun v => { v with phase := ph })).modFen 0
    fun x => g { x with block := Block.reset false, oldLog := [lrc true 5], log := [lrc false 7] }
theorem canStart {s : State} (h1 : s.arg.n < 30720) (h2 : (s.tile s.arg.n).blk.lr.gang.isSome = true) (h3 : (s.fen s.arg.n).unprotected = false)
    (h4 : (s.tile s.arg.n).vol.phase = .none) (h5 : s.alive s.arg.n = true) : CanStart s s.arg.n := ⟨h1, h2, h3, h4, h5⟩
def bigLog : State := fb .none id fun x => { x with oldLog := [], log := [lrc false 191700] }
theorem bigLog_full : logLimit ≤ logBytes ((bigLog.fen bigLog.arg.n).oldLog ++ (bigLog.fen bigLog.arg.n).log) := by
  have h : ∀ n, logBytes [lrc false n] = 16 + (n + 15) / 16 * 16 := fun n => by simp [logBytes, lrc]
  exact (by rw [h]; decide : logLimit ≤ logBytes [lrc false 191700])
/-- The checkpoint copies of tile 0, and its log record 0, have come to its buddy (R302). -/
def copyP (n : Nat) : Pkt := { pk .stage 7 0 with src := .pool n, dst := .pool (buddyOf n) }
def recP (n : Nat) : Pkt := { pk (.log 0) 7 0 with src := .pool n, dst := .pool (buddyOf n) }
theorem wit_BoundariesAreTaken : (let s := fb .none id id; CanStart s s.arg.n ∧ s.counting s.arg.n = true ∧ 4096 ≤ (s.tile s.arg.n).dirtyCount) ∧
    (CanStart bigLog bigLog.arg.n ∧ logLimit ≤ logBytes ((bigLog.fen bigLog.arg.n).oldLog ++ (bigLog.fen bigLog.arg.n).log)) ∧
    (let s := fb .triggered id id; let x := s.tile s.arg.n; x.vol.failed = false ∧ x.vol.phase = .triggered ∧ s.drained s.arg.n = true ∧ x.blk.ct.dlb.getLsbD 16 = true) ∧
    (let s := { fb .staging id id with net := [copyP 0] }; (s.tile s.arg.n).vol.failed = false ∧ (s.tile s.arg.n).vol.phase = .staging ∧ s.staged s.arg.n = some (copyP 0)) ∧
    (∀ o : Bool, let s := fb .committing (fun t => t.modVol fun v => { v with owed := o }) id; (s.tile 0).vol.phase = .committing ∧ s.mayCommit 0 = true ∧ (s.tile 0).vol.owed = o ∧ s.protects 0 = true) ∧
    (let s := fb .full id id; let x := s.tile s.arg.n; x.vol.phase = .full ∧ x.vol.failed = false ∧ (s.tile (buddyOf s.arg.n)).vol.failed = false ∧ s.drained s.arg.n = true ∧ s.staging s.arg.n = none ∧
      x.vol.owed = false ∧ { s with net := [copyP 0] }.staging s.arg.n = some (copyP 0) ∧ (copyP 0).stage = .arrived) ∧
    (let s := { fb .none id id with net := [recP 0] }; s.alive s.arg.n = true ∧ ackFirst (s.logged s.arg.n) (s.fen s.arg.n).oldLog = none ∧
      ackFirst (s.logged s.arg.n) (s.fen s.arg.n).log = some (lrc false 7, [{ lrc false 7 with durable := true }])) ∧
    (let s := { fb .none id fun x => { x with oldLog := [lrc false 6] } with net := [recP 0] };
      ackFirst (s.logged s.arg.n) (s.fen s.arg.n).oldLog = some (lrc false 6, [{ lrc false 6 with durable := true }])) ∧
    (lrc false 7).durable = false := by
  refine ⟨?_, ⟨?_, bigLog_full⟩, ?_, ?_, ?_, ?_, ?_, ?_, ?_⟩
  all_goals repeat' first | decide +kernel | apply And.intro | apply canStart
theorem wit_StepStartsABoundary : let s := { fb .none (fun t => t.modCtx 2 fun c => { c with run := .ready }) id with sched := [.issue 0] };
    TurnOf s 0 { s with sched := [] } ∧ Sound s ∧ s.overdue = none ∧ ({ s with sched := [] }.due 0).isSome = true := by
  refine ⟨.chosen [] rfl, by unfold Sound; decide +kernel, by decide +kernel, by decide +kernel⟩
def fS (f : Tile → Tile) (g : Mgmt → Mgmt) (a : EvArg) : State := mg0 g (arg0 ((bG gr id {}).modTile 0 fun t => f (run1 t)) a)
def fld0 (t : Tile) : Tile := t.modVol fun v => { v with failed := true }
def rply (t : Tile) : Tile := t.modVol fun v => { v with replay := some [] }
def shd : Shadow := { pcn := [], pos := [(0, [(0, (0, 16))])], ovr := [(5, 3)], routes := [(4, [(0, 2)])], left := [7], cores := [0], full := [168] }
def dbgS (c : DbgWrite) : State := fS (fun t => t.modVol fun v => { v with halted := true }) id { dbg := some c }
theorem wit_FailuresRepairsAndHalts : (let s := fS id id { n := 0, nums := [8 * 4096 + 3] }; s.arg.n < 30720 ∧ s.arg.nums = [8 * 4096 + 3]) ∧
    (let s := fS id id { n := 0 }; s.arg.n < 30720 ∧ s.arg.nums = [] ∧ s.arg.b = false ∧ s.arg.j = 0 ∧ (s.tile s.arg.n).vol.failed = false) ∧
    ((fS id id { n := 0, j := 1 }).arg.j ≠ 0 ∧ (fS id id { n := 0, j := 1 }).arg.b = false ∧ (fS id id { n := 0, j := 1 }).arg.nums = []) ∧
    (let s := fS id id { n := 0, b := true }; s.arg.nums = [] ∧ s.arg.b = true ∧ (s.tile s.arg.n).vol.failed = false ∧ s.mg.repairs.contains s.arg.n = false ∧ (s.tile s.arg.n).blk.lr.gang.isSome = true ∧ s.noFen s.arg.n = false) ∧
    (let s := fS fld0 id { n := 0 }; let k := clusterOf s.arg.n; s.arg.n < 30720 ∧ (s.tile s.arg.n).vol.failed = true ∧ (s.tile s.arg.n).vol.detected = false ∧ s.mg.shadow = none ∧ s.mg.repairs = [] ∧
      s.bracketed k = false ∧ 16 ∉ s.badSites (s.pcnOf k) ∧ 17 ∉ s.badSites (s.pcnOf k) ∧ (∀ p ∈ List.range 16, (s.posMap k p).2 ≠ 16) ∧
      (s.tile s.arg.n).blk.lr.gang = some 4 ∧ (s.tile s.arg.n).vol.phase ≠ .full ∧ (s.fen s.arg.n).unprotected = false) ∧
    (let s := fS (fun t => rply (fld0 t)) (fun m => { m with repairs := [0], shadow := some shd }) { n := 7, j := 1 }; s.mg.shadow = some shd ∧ s.arg.j ≠ 0 ∧ s.arg.n ∈ shd.left ∧
      ∀ q ∈ s.net, q.dst ≠ .router s.arg.n) ∧
    (let p : Pkt := { pk .causeway 7 0 with src := .milliner 0, dst := .router 7 }; let s := { fS (fun t => rply (fld0 t)) (fun m => { m with repairs := [0], shadow := some shd }) { n := 7, i := 3, b := true } with net := [p] };
      s.mg.shadow = some shd ∧ s.arg.j = 0 ∧ s.arg.b = true ∧ s.arrival (.router s.arg.n) = some p) ∧
    (let s := fS (fun t => rply (fld0 t)) (fun m => { m with repairs := [0], shadow := some { shd with left := [] } }) {};
      s.mg.shadow = some { shd with left := [] } ∧ s.arg.j = 0 ∧ s.arg.b = false ∧ 0 ∈ shd.cores ∧ (s.tile 0).vol.replay.isSome = true ∧ (Tbl.look s.tiles 0).isSome = true ∧ shd.pos = [(0, [(0, (0, 16))])] ∧
      s.gang? 4 = some gr ∧ Tbl.look shd.routes 4 = some [(0, 2)]) ∧
    (let s := fS (fun t => (rply t).modNi fun k => { k with rtx := [ret0], reqs := [q0 rd0 (some 7) none] }) (fun m => { m with repairs := [0], cause := [(0, (false, 0))] }) { n := 0 };
      (s.tile s.arg.n).vol.replay = some [] ∧ (s.tile s.arg.n).vol.failed = false ∧ (s.tile s.arg.n).vol.owed = false ∧ s.mg.repairs = [0] ∧ (s.tile s.arg.n).blk.ni.rtx = [ret0]) ∧
    (let s := fS id id { n := 16 }; Tbl.look s.tiles 193 = some (s.tile 193) ∧ 193 < 30720 ∧ s.unheld 193 = true ∧ s.brimDue 193 = false ∧ s.divertDue 193 = false ∧ s.arg.n ≤ 16 ∧ s.mg.halts.contains s.arg.n = false) ∧
    (∀ c ∈ [DbgWrite.greg 0 2 5 1, .preg 0 2 5 1, .sreg 0 2 5 1, .pc 0 2 1, .sys 0 2 0x010 1, .sys 0 2 0x002 1, .sys 0 2 0x009 1, .sys 0 2 0x015 1, .acc 0 7 0xE3, .pool 0 5 [1, 2, 3], .pool 0 128 [1, 2, 3]], let s := dbgS c; (s.tile 0).vol.halted = true ∧ (s.tile 0).vol.failed = false ∧
      s.arg.dbg = some c) ∧ ((dbgS (.pc 0 2 1)).tile 0).blk.lr.xb = 128 := by
  repeat' first | decide +kernel | apply And.intro | rfl

def nS (l : List Pkt) (f : Tile → Tile) (g : State → State) (a : EvArg) : State := { g (fS f id a) with net := l }
def sp (src dst : Owner) (st : Stage) : Pkt := { pk (.msg msg3) 3 5 with src := src, dst := dst, stage := st }
def lanes7 (st : Stage) : List Pkt := (List.range 7).map fun i => { sp (.pool 0) (.slice 3) st with id := 50 + i }
def dr0 (d : LinkDir) : LinkDir := { d with wire := [(2, [51, 52]), (3, [53])], buf := [(1, [50]), (2, [51, 52]), (3, [53])], expect := 2, seq := 4 }
def uciS (f : Uci → Uci) (l : List Pkt) (a : EvArg) : State := nS l id (fun s => s.modUci 37 f) { a with n := 37 }
def bel (f : Belvis → Belvis) (s : State) : State := s.modRim fun r => { r with moduleNo := 1, belvis := [(2, f { tx := 9, una := 5, rx := 7, resends := 3, out := [(5, 3, 0x800, [], 0, 4)], asks := [] })] }
def frm (seq ack : Nat) (l : List (Nat × List Byte)) : BelvisFrame := { src := 5, dst := 1, seq := BitVec.ofNat 32 seq, ack := BitVec.ofNat 32 ack, lines := l }
/-- A line's request to the port of a window. -/
def winR (op : MemOp) : Req := { q0 op none none with owner := .belvis 2, line := some 4, seq := 0 }
def chn0 : Chan := { peer := 1, cls := 3, next := 8, una := 8 }
def ni1 (t : Tile) : Tile := t.modNi fun k => { k with rtx := [ret0], reqs := [q0 rd0 (some 7) none], send := [chn0] }
/-- A packet at the router that module 3 of chiplet 3 joins. -/
def edge : Pkt := sp (.pool 0) (.slice 3) (.hop (rimRouter 3 0).1 (rimRouter 3 0).2)
theorem wit_PacketsAndLinks : (let p := sp (.pool 0) (.pool 1) .queued; let s := nS [p] id id { n := 0 }; s.arg.n = 0 ∧ 0 < 40000 ∧ (s.tile 0).vol.failed = false ∧
      (s.tile 0).vol.switched = false ∧ p ∈ s.net ∧ p.stage = .queued ∧ 1 ≤ p.cls ∧ p.cls ≤ 6 ∧ s.mayLeave 0 p = true) ∧
    (let p := { sp (.pool 0) (.pool 1) .queued with cls := 7 }; (nS [p] id id { n := 0 }).mayLeave 0 p = true ∧ p.cls ≤ 7) ∧
    (let p := sp (.slice 3) (.pool 1) .queued; let s := nS [p] id id { n := 40003 }; ownerOf s.arg.n = .slice 3 ∧ p ∈ s.net ∧ s.mayLeave s.arg.n p = true) ∧
    (let p := sp (.pool 0) (.pool 1) .held; let s := nS [p] id id { i := 3 }; s.pkt? s.arg.i = some p ∧ p.stage = .held ∧ 0 < 32768 ∧ (s.tile 0).vol.failed = false) ∧
    (let p := sp (.slice 3) (.pool (32768 + 48)) .held; (nS [p] id id { i := 3 }).pkt? 3 = some p ∧ chipletOf p.src = some 3 ∧ chipletOf p.dst = some 3) ∧
    (let p := sp (.slice 3) (.pool 1) .held; let s := nS [p] id id { i := 3 }; s.pkt? 3 = some p ∧ chipletOf p.src = some 3 ∧ chipletOf p.dst ≠ some 3 ∧ s.moduleFor 3 p = some 37) ∧
    (let p := sp (.pool 0) (.pool 1) (.hop 1 0); let s := nS [p] id id { i := 3 }; s.pkt? s.arg.i = some p ∧ s.routerAt 1 = (1, 0)) ∧
    (let p := sp (.pool 0) (.pool 1) (.hop 0 0); let s := nS [p] id id { i := 3 }; let e := through 0 0 (s.portFor p 0 0 (s.routerAt 1).1 (s.routerAt 1).2);
      s.pkt? s.arg.i = some p ∧ s.routerAt 1 ≠ (0, 0) ∧ (pcnAt e.1 e.2).isSome = true ∧ s.mg.domainsOff = [] ∧ (mg0 (fun m => { m with domainsOff := [domainOf 0] }) s).mg.domainsOff.contains (domainOf 0) = true) ∧
    (let s := nS [edge] id id { i := 3 }; s.pkt? s.arg.i = some edge ∧ edge.stage = .hop (rimRouter 3 0).1 (rimRouter 3 0).2 ∧ chipletOf edge.dst = some 3 ∧ s.moduleFor 3 edge = some 36 ∧
      rimRouter 3 (36 % 12) = ((rimRouter 3 0).1, (rimRouter 3 0).2)) ∧
    (let s := nS [] ni1 id { n := 0, i := 0 }; s.alive s.arg.n = true ∧ (s.tile 0).blk.ni.rtx[s.arg.i]? = some ret0 ∧ (s.tile 0).blk.ni.reqs[s.arg.i]? = some (q0 rd0 (some 7) none) ∧
      (s.tile 0).blk.ni.send[s.arg.i]? = some chn0 ∧ s.idleChan s.arg.n chn0 = true) ∧
    (let s := uciS id (lanes7 (.link 37 true)) { b := true }; (s.uci s.arg.n).half ≠ 3 ∧ fillFlit 240 (s.net.filter (fun p => p.stage == .link s.arg.n s.arg.b)) ≠ [] ∧
      ((s.uci s.arg.n).dir s.arg.b).buf.length < 128) ∧
    (∀ q ∈ [0, 1], let s := uciS (fun u => { u with toRim := { dr0 u.toRim with expect := BitVec.ofNat 8 (2 + q) } }) (lanes7 (.flit 37 true)) { b := true, j := q, nums := [0, 0, 0, 0, 51, 52] };
      let d := (s.uci s.arg.n).dir s.arg.b; d.wire = (2, [51, 52]) :: [(3, [53])] ∧ (s.uci s.arg.n).retraining = false ∧ (s.uci s.arg.n).half ≠ 3 ∧ s.arg.j = q ∧
      d.expect = BitVec.ofNat 8 (2 + q) ∧ d.fails.length < 3) ∧
    (let s := uciS (fun u => { u with toRim := { dr0 u.toRim with nak := some 2 } }) [] { b := true }; ((s.uci s.arg.n).dir s.arg.b).nak = some 2) ∧
    (((uciS id [] { i := 70 }).uci 37).half ≠ 3) ∧
    (∀ l ∈ [[3, 40], [3, 4], [33], []], let s := uciS (fun u => { u with retraining := true }) [] { nums := l }; (s.uci s.arg.n).retraining = true ∧ (s.uci s.arg.n).failed ++ s.arg.nums = l) ∧
    (∀ f ∈ [frm 8 6 [], frm 7 8 [], frm 7 8 [(0x400, List.replicate 128 5)]], let s := nS [] id (bel id) { n := 2, frame := some f }; s.arg.frame = some f ∧ f.dst = s.rim.moduleNo ∧ (s.belvisOf s.arg.n).asks = [] ∧
      (s.belvisOf s.arg.n).rx = 7 ∧ (f.ack - (s.belvisOf s.arg.n).una).toNat ≤ ((s.belvisOf s.arg.n).tx - (s.belvisOf s.arg.n).una).toNat ∧ 0x400 + 128 ≤ deviceEnd) ∧
    (∀ n ∈ [3, 20], let s := nS [] (fun t => t.modEn fun e => { e with copies := [cpy 1024 2048 0 0] }) (bel fun b => { b with resends := n }) { n := 2 }; let b := s.belvisOf s.arg.n;
      b.una ≠ b.tx ∧ b.resends = n ∧ b.out.map (fun e => e.2.2.2.2) = [(0, 4)] ∧ (s.copyOf 0 4).isSome = true) ∧
    (∀ op ∈ [MemOp.write [(windowAddr 5 0x400, List.replicate 128 5)], .read [(windowAddr 5 0x400, 0)] 128], let s := nS [] id (bel id) { n := 2 };
      turnOf (s.dedupOf (.belvis 2) (winR op).src).done (winR op).seq = .now) ∧
    (let r := winR (.read [(windowAddr 5 0x400, 0)] 128); let f := frm 7 8 [(0x400, List.replicate 128 5)]; let s := nS [] id (bel fun b => { b with asks := [r] }) { n := 2, frame := some f };
      f.seq = (s.belvisOf 2).rx ∧ (s.belvisOf s.arg.n).asks.find? (fun r => r.op.first == windowAddr f.src.toNat 0x400) = some r) := by
  repeat' first | decide +kernel | apply And.intro | rfl

/-- A query that has waited, whose one page has one unit. -/
def wQry : Query := { qry 1 with pages := [(0, .slice 3, 0x8000)], waits := true, hor := 100 }
theorem wit_MorePacketsAndLinks : (let s := { uciS (fun u => { u with toRim := dr0 u.toRim }) (lanes7 (.flit 37 true)) { b := true } with nextId := 60 };
      (∀ i ∈ [51, 52], i < s.nextId) ∧ ∀ p ∈ s.net, p.dst = .slice 3) ∧
    (let p : Pkt := { pk .causeway 7 0 with src := .milliner 0, dst := .router 7, stage := .held }; let s := nS [p] id id { i := 3 }; s.pkt? s.arg.i = some p ∧ p.stage = .held) ∧
    (let s := nS [] (fun t => (t.modEn fun e => { e with queries := [wQry] }).modNi fun k => { k with send := [{ peer := ownerCode (.slice 3), cls := 6, next := 5, una := 4 }] }) id { n := 0 };
      s.arg.n < 40000 ∧ (s.tile 0).vol.failed = false ∧ (s.tile 0).vol.switched = false ∧ (s.tile 0).vol.replay = none ∧
      (s.tile 0).blk.en.queries.find? (fun q => !q.pages.isEmpty && (s.tile 0).queryTurn q) = some wQry ∧ (s.startQuery 0 wQry).isSome = true) ∧
    (let s := fb .full id id; s.noFen s.arg.n = false) ∧ (∀ all : Bool, let s := saving false false all; ((s.tile s.arg.n).saveBytes ≤ saveSize)) := by
  decide +kernel

/-! ### Memory and privilege over every step -/

def mA : Mem := Mem.write (Mem.write [] 5 [1, 2]) 9 [3]
def mB : Mem := Mem.write (Mem.write [] 9 [3]) 5 [1, 2]
theorem wit_EqualMemoriesAreEqualData : Mem.wf mA = true ∧ Mem.wf mB = true ∧ (∀ a, Mem.read mA a = Mem.read mB a) ∧ mA ≠ [] ∧ (5 + [7, 7].length ≤ 7 ∨ 7 + [9].length ≤ 5) := by
  refine ⟨by decide +kernel, by decide +kernel, fun a => congrArg (Mem.read · a) (by decide +kernel : mA = mB), by decide +kernel, by decide⟩
/-- Tile 0 with the image of the worked example at its pc. -/
def imgS : State := on0 (fun t => { t with pool := Mem.write [] 16 (bytes [0x0D7E, 0xC000]) }) w0
theorem wit_StepsKeepMemoriesInForm : Safety.MemoriesOk imgS ∧ Safety.Goes imgS := by
  refine ⟨?_, _, rfl⟩
  unfold Safety.MemoriesOk
  repeat' first | decide +kernel | apply And.intro
theorem wit_UnitsOnTilesStayInUserMode : Instr.isEvent (.mov { u0 with a := 3, b := 1 }) = false ∧ w0.cur < 30720 ∧ w0.cx.supervisor = false ∧
    ∃ t, exec (.mov { u0 with a := 3, b := 1 }) w0 = .next t := ⟨rfl, by decide +kernel, by decide +kernel, _, rfl⟩

end Sys2Proof.Tests
end

section
/-! SUPPORT. Bits of a word, tables and folds: what the proofs about the module's events read back. -/

namespace Sys2Proof.Machine

/-! ### Bits, tables and folds -/

/-- A one-bit field reads back what was written into it. -/
theorem getLsbD_setFld_same {w : Nat} (x : BitVec w) (n : Nat) (hn : n < w) (b : Bool) : (setFld x n n b.toNat).getLsbD n = b := by
  have hp : 0 < 2 ^ n := Nat.two_pow_pos n
  obtain ⟨q, r, hr, hx⟩ : ∃ q r, r < 2 ^ n ∧ x.toNat = q * 2 ^ n + r :=
    ⟨x.toNat / 2 ^ n, x.toNat % 2 ^ n, Nat.mod_lt _ hp, (Nat.div_add_mod' ..).symm⟩
  have hq : x.toNat / 2 ^ n = q := by rw [hx, Nat.mul_comm, Nat.mul_add_div hp, Nat.div_eq_of_lt hr, Nat.add_zero]
  have hb : b.toNat % 2 = b.toNat := by cases b <;> rfl
  have hle : q % 2 * 2 ^ n ≤ q * 2 ^ n := Nat.mul_le_mul_right _ (Nat.mod_le q 2)
  have hv : x.toNat - q % 2 * 2 ^ n + b.toNat * 2 ^ n = 2 ^ n * (q - q % 2 + b.toNat) + r := by
    rw [Nat.mul_add, Nat.mul_sub, hx, Nat.mul_comm (2 ^ n) q, Nat.mul_comm (2 ^ n) (q % 2), Nat.mul_comm (2 ^ n) b.toNat]; omega
  unfold setFld fld
  rw [Nat.add_sub_cancel_left, Nat.pow_one, hq, hb, hv, BitVec.getLsbD_ofNat, Nat.testBit_eq_decide_div_mod_eq,
    Nat.mul_add_div hp, Nat.div_eq_of_lt hr, Nat.add_zero]
  cases b <;> simp [hn] <;> omega

theorem Tbl.look_drop_same {α : Type} (t : Tbl α) (k : Nat) : Tbl.look (Tbl.drop t k) k = none := by
  induction t with
  | nil => rfl
  | cons e r ih =>
    by_cases h : e.1 = k
    · simpa [Tbl.drop, h] using ih
    · simpa [Tbl.drop, Tbl.look, h] using ih

theorem Tbl.mem_of_look {α : Type} (t : Tbl α) (k : Nat) (a : α) (h : Tbl.look t k = some a) : (k, a) ∈ t := by
  induction t with
  | nil => cases h
  | cons e r ih =>
    by_cases he : e.1 = k
    · obtain rfl : e.2 = a := by simpa [Tbl.look, he] using h
      exact List.mem_cons.2 (.inl (Prod.ext he.symm rfl))
    · exact List.mem_cons_of_mem _ (ih (by simpa [Tbl.look, he] using h))

/-- A table whose entries are changed where they stand. -/
theorem Tbl.look_map {α : Type} (f : Nat → α → α) (t : Tbl α) (k : Nat) :
    Tbl.look (t.map (fun e => (e.1, f e.1 e.2))) k = (Tbl.look t k).map (f k) := by
  induction t with
  | nil => rfl
  | cons e r ih =>
    by_cases h : e.1 = k
    · simp [Tbl.look, h]
    · simpa [Tbl.look, h] using ih

/-- A table written out over a list of numbers. -/
theorem Tbl.get_tabulate {α : Type} (g : Nat → α) (l : List Nat) (k : Nat) (d : α) (h : k ∈ l) :
    Tbl.get (l.map (fun i => (i, g i))) k d = g k := by
  induction l with
  | nil => cases h
  | cons i r ih =>
    by_cases hi : i = k
    · simp [Tbl.get, Tbl.look, hi]
    · have hk : k ∈ r := (List.mem_cons.1 h).resolve_left (Ne.symm hi)
      simpa [Tbl.get, Tbl.look, hi] using ih hk

/-- A step of a fold brings a property about, and the later ones keep it. -/
theorem foldl_reaches {α β : Type} (P : β → Prop) (f : β → α → β) (l : List α) (b : β) (a : α) (ha : a ∈ l) (hr : ∀ b, P (f b a))
    (hk : ∀ b, P b → ∀ x ∈ l, P (f b x)) : P (l.foldl f b) := by
  obtain ⟨l₁, l₂, rfl⟩ := List.append_of_mem ha
  rw [List.foldl_append, List.foldl_cons]
  exact List.foldlRecOn l₂ f (hr _) fun b hb x hx => hk b hb x (by simp [hx])

/-- A part of what has been written, read back. -/
theorem Mem.bytes_write_within (m : Mem) (a n : Nat) (bs : List Byte) (h : a + n ≤ bs.length) :
    Mem.bytes (Mem.write m 0 bs) a n = (bs.drop a).take n := by
  apply List.ext_getElem
  · simp [Mem.bytes]; omega
  · intro i hi _
    have hin : i < n := by simpa [Mem.bytes] using hi
    simp only [Mem.bytes, List.getElem_map, List.getElem_range, Mem.read_write, List.getElem_take, List.getElem_drop]
    have hlt : a + i < bs.length := by omega
    rw [if_pos (by omega), Nat.sub_zero, List.getD_eq_getElem?_getD, List.getElem?_eq_getElem hlt, Option.getD_some]

/-- The length of a table of entries of one size. -/
theorem length_flatMap_range {α : Type} (f : Nat → List α) (n m : Nat) (hf : ∀ i, (f i).length = n) :
    ((List.range m).flatMap f).length = n * m := by
  induction m with
  | zero => rfl
  | succ m ih => rw [List.range_succ, List.flatMap_append, List.length_append, ih, List.flatMap_singleton, hf, Nat.mul_succ]

/-- The entry at a place of a table of entries of one size. -/
theorem take_drop_flatMap_range {α : Type} (f : Nat → List α) (n m q : Nat) (hf : ∀ i, (f i).length = n) (hq : q < m) :
    (((List.range m).flatMap f).drop (n * q)).take n = f q := by
  obtain ⟨k, rfl⟩ : ∃ k, m = q + (k + 1) := ⟨m - q - 1, by omega⟩
  have hl := length_flatMap_range f n q hf
  rw [List.range_add, List.flatMap_append, List.drop_append_of_le_length (by omega), ← hl, List.drop_length, List.nil_append,
    List.range_succ_eq_map, List.map_cons, List.flatMap_cons, Nat.add_zero, ← hf q, List.take_left']
  rfl

end Sys2Proof.Machine
end

section
/-! SUPPORT. What stopping tiles, switching launches out and forcing brims leave of the management plane and the command processor. -/

namespace Sys2Proof.Machine

theorem Tile.clearSlot_failed (t : Tile) (c k : Nat) : (t.clearSlot c k).vol.failed = t.vol.failed := by
  simp [Tile.clearSlot, Tile.slotKnown]

theorem Tile.atDeadline_vol (t : Tile) : t.atDeadline.vol = t.vol :=
  foldl_keeps (fun x : Tile => x.vol = t.vol) _ _ t rfl fun _ _ h => h

/-! ### What stopping tiles and catching up leave alone -/

/-- The power domains that are off, the event ring and the heartbeat of the command processor stand as they were, and every core that
had failed still has. -/
structure State.Kept (s t : State) : Prop where
  off : t.mg.domainsOff = s.mg.domainsOff
  events : t.mg.events = s.mg.events
  hung : t.cp.hung = s.cp.hung
  beat : t.cp.beat = s.cp.beat
  failed : ∀ k, (s.tile k).vol.failed = true → (t.tile k).vol.failed = true

namespace State.Kept

variable {s t u : State}

theorem refl (s : State) : Kept s s := ⟨rfl, rfl, rfl, rfl, fun _ h => h⟩

/-- A change elsewhere keeps all. -/
theorem elsewhere (h : Kept s t) (ht : u.tiles = t.tiles) (off : u.mg.domainsOff = t.mg.domainsOff) (ev : u.mg.events = t.mg.events)
    (hung : u.cp.hung = t.cp.hung) (beat : u.cp.beat = t.cp.beat) : Kept s u :=
  ⟨off.trans h.off, ev.trans h.events, hung.trans h.hung, beat.trans h.beat, fun k hk => by
    rw [State.tile, ht]; exact h.failed k hk⟩

/-- A change of one core keeps all, if it takes no failure back. -/
theorem modTile (h : Kept s t) (k : Nat) (f : Tile → Tile) (hf : (t.tile k).vol.failed = true → (f (t.tile k)).vol.failed = true) :
    Kept s (t.modTile k f) where
  off := h.off
  events := h.events
  hung := h.hung
  beat := h.beat
  failed j hj := by
    by_cases hk : j = k
    · subst hk; rw [tile_modTile]; exact hf (h.failed j hj)
    · rw [tile_modTile_other t k j f hk]; exact h.failed j hj

theorem modGang (h : Kept s t) (g : Nat) (f : Gang → Gang) : Kept s (t.modGang g f) := by
  unfold State.modGang
  split
  · exact h
  · exact h.elsewhere rfl rfl rfl rfl rfl

theorem modCluster (h : Kept s t) (k : Nat) (f : Cluster → Cluster) : Kept s (t.modCluster k f) := h.elsewhere rfl rfl rfl rfl rfl
theorem modFen (h : Kept s t) (k : Nat) (f : Fen → Fen) : Kept s (t.modFen k f) := h.elsewhere rfl rfl rfl rfl rfl
theorem withNet (h : Kept s t) (l : List Pkt) : Kept s { t with net := l } := h.elsewhere rfl rfl rfl rfl rfl
theorem emit (h : Kept s t) (src dst : Owner) (cls seq : Nat) (b : Body) (mask : BitVec 16) (bytes : Nat) (rel : Option Nat) :
    Kept s (t.emit src dst cls seq b mask bytes rel) := h.elsewhere rfl rfl rfl rfl rfl

/-! #### Stopping tiles (R431, R444, R445) -/

theorem answerRecs (h : Kept s t) (core : Nat) (l : List LogRec) : Kept s (t.answerRecs core l) := by
  refine foldl_keeps (Kept s) _ l t h fun u r hu => ?_
  split
  · split
    · exact hu
    · exact hu.emit ..
  · exact hu

theorem comesAgain (h : Kept s t) (core : Nat) (r : LogRec) : Kept s (t.comesAgain core r) := by
  unfold State.comesAgain
  split
  · split
    · exact h.withNet _
    · exact h
  · exact h.modGang ..
  · exact h.modGang ..
  · exact h

theorem discardUnsent (h : Kept s t) (core : Nat) : Kept s (t.discardUnsent core) := by
  unfold State.discardUnsent
  simp only
  exact ((foldl_keeps (Kept s) _ _ t h fun _ r hu => hu.comesAgain core r).withNet _).modFen ..

theorem doubleFault (h : Kept s t) (g : Nat) : Kept s (t.doubleFault g) := by
  unfold State.doubleFault
  split
  · exact h
  · refine foldl_keeps (Kept s) _ _ _ (h.modGang g _) fun u k hu => hu.modTile k _ fun hf => ?_
    simpa [Tile.atDeadline_vol] using hf

theorem doubleFaultAt (h : Kept s t) (core : Nat) : Kept s (t.doubleFaultAt core) := by
  unfold State.doubleFaultAt
  split
  · exact h
  · exact h.doubleFault _

theorem unprotect (h : Kept s t) (w : Nat) : Kept s (t.unprotect w) := by
  have hu : Kept s (((t.answerRecs w ((t.fen w).oldLog ++ (t.fen w).log)).dropClass7 w).modFen w fun _ => { Fen.reset with unprotected := true }) :=
    ((h.answerRecs w _).withNet _).modFen ..
  unfold State.unprotect
  simp only
  split
  · exact hu.doubleFaultAt w
  · split
    · exact hu
    · exact hu.modTile w _ fun hf => hf

theorem failTile (h : Kept s t) (core : Nat) : Kept s (t.failTile core) := by
  unfold State.failTile
  simp only
  refine unprotect (modTile ?_ core _ fun _ => rfl) _
  exact (h.discardUnsent core).elsewhere rfl rfl rfl rfl rfl

theorem failCluster (h : Kept s t) (k : Nat) : Kept s (t.failCluster k) := by
  unfold State.failCluster
  simp only
  exact foldl_keeps (Kept s) _ _ _ (h.elsewhere rfl rfl rfl rfl rfl) fun _ p hu => hu.failTile _

/-! #### Switches and forced brims (R35, R447, R468) -/

theorem nextLease (h : Kept s t) (k : Nat) : Kept s (t.nextLease k) := by
  unfold State.nextLease State.grant
  simp only
  split
  · exact h.modCluster ..
  · exact foldl_keeps (Kept s) _ _ _ ((h.modCluster ..).modCluster ..) fun _ _ hu => hu.modTile _ _ fun hf => hf

theorem nextLeaseIf (h : Kept s t) (c : Prop) [Decidable c] (k : Nat) : Kept s (if c then t.nextLease k else t) := by
  split
  · exact h.nextLease k
  · exact h

theorem vacate (h : Kept s t) (k : Nat) : Kept s (t.vacate k) := by
  have hc : ∀ (l : List (Nat × Nat)) (x : Tile), (l.foldl (fun x e => x.clearSlot e.1 e.2) x).vol.failed = x.vol.failed := fun l x =>
    foldl_keeps (fun y : Tile => y.vol.failed = x.vol.failed) _ l x rfl fun y e hy => (y.clearSlot_failed e.1 e.2).trans hy
  have hu : Kept s (t.unpinAll k) := h.elsewhere rfl rfl rfl rfl rfl
  unfold State.vacate
  dsimp only
  refine nextLeaseIf (modCluster (modFen (modTile hu k _ fun hf => ?_) _ _) _ _) _ _
  simp only [Tile.modVol_vol, Tile.modLr_vol, Tile.modCt_vol, Tile.modEn_vol, Tile.modArr_vol, Tile.modNi_vol, hc]
  exact hf

theorem switchOut (h : Kept s t) (g : Nat) (k : Gang) : Kept s (t.switchOut g k) := by
  unfold State.switchOut
  simp only
  refine modGang (foldl_keeps (Kept s) _ _ _ (withNet ?_ _) fun u x hu => vacate (modTile ?_ x _ fun hf => hf) x) _ _
  · exact foldl_keeps (Kept s) _ _ _ h fun _ c hu => hu.modCluster c _
  · exact hu.elsewhere rfl rfl rfl rfl rfl

theorem takeSaves (h : Kept s t) (g : Nat) : Kept s (t.takeSaves g) := by
  unfold State.takeSaves
  split
  · exact h
  · split
    · exact h
    · split
      · refine modGang ?_ _ _
        exact h.elsewhere rfl rfl rfl rfl rfl
      · split
        · exact h.switchOut ..
        · exact h

theorem forceBrim (h : Kept s t) (g : Nat) : Kept s (t.forceBrim g) := by
  unfold State.forceBrim
  split
  · exact h
  · split
    · simp only
      split
      · exact h.modGang ..
      · exact foldl_keeps (Kept s) _ _ _ (h.modGang ..) fun _ _ hu => hu.emit ..
    · exact h

theorem brimQueue (h : Kept s t) (q : Nat) : Kept s (t.brimQueue q) := by
  unfold State.brimQueue
  simp only
  split
  · exact h.elsewhere rfl rfl rfl rfl rfl
  · refine foldl_keeps (Kept s) _ _ _ ?_ fun _ e hu => hu.forceBrim e.1
    exact h.elsewhere rfl rfl rfl rfl rfl

theorem catchUp (h : Kept s t) : Kept s t.catchUp := by
  unfold State.catchUp
  simp only
  exact foldl_keeps (Kept s) _ _ _ (foldl_keeps (Kept s) _ _ _ h fun _ g hu => hu.takeSaves g) fun _ q hu => hu.brimQueue q

end State.Kept
end Sys2Proof.Machine
end

section
/-! SUPPORT. Bring-up: module reset, readiness and its loss (R39, R40, R389, R444, R445, R472, R473). -/

namespace Sys2Proof.Machine

open Sys2Proof.Claims

/-- An event completes by what its meaning answers. -/
theorem completes_iff {i : Instr} {s : State} {P : State → Prop} {o : Host.Outcome State Fault Refusal} (h : exec i s = o) :
    Completes i s P ↔ ∃ t, o = .next t ∧ P t := by
  subst h; rfl

/-! ### Readiness (R40) -/

/-- A ready bit reads what was written, where the number names a function. -/
theorem Mgmt.isReady_setReady (m : Mgmt) (f : Fn) (v : Bool) (hf : FnOk f) : (m.setReady f v).isReady f = v := by
  cases f with
  | field n =>
    have hn : n < 84 := hf
    by_cases h : n < 64
    · simp only [setReady, isReady, if_pos h, getLsbD_setFld_same _ n h]
    · have h' : n - 64 < 64 := by omega
      simp only [setReady, isReady, if_neg h, if_pos hn, getLsbD_setFld_same _ (n - 64) h']
  | rim n =>
    have hn : n < 24 := hf
    have h' : n < 64 := by omega
    simp only [setReady, isReady, if_pos hn, getLsbD_setFld_same _ n h']
  | hbm n =>
    have hn : n < 24 := hf
    have h' : 24 + n < 64 := by omega
    simp only [setReady, isReady, if_pos hn, getLsbD_setFld_same _ (24 + n) h']
  | belvis n =>
    have hn : n < 16 := hf
    have h' : 48 + n < 64 := by omega
    simp only [setReady, isReady, if_pos hn, getLsbD_setFld_same _ (48 + n) h']
  | crown | cpx | cxla | cxlb => exact getLsbD_setFld_same _ _ (by decide) v

theorem Mgmt.setReady_domainsOff (m : Mgmt) (f : Fn) (v : Bool) : (m.setReady f v).domainsOff = m.domainsOff := by
  cases f with
  | field n =>
    unfold setReady
    dsimp only
    split
    · rfl
    · split <;> rfl
  | rim n | hbm n | belvis n =>
    unfold setReady
    dsimp only
    split <;> rfl
  | crown | cpx | cxla | cxlb => rfl

theorem State.loseFn_notReady (s : State) (f : Fn) (hf : FnOk f) : (s.loseFn f).mg.isReady f = false :=
  (show (s.loseFn f).mg.isReady f = (s.mg.setReady f false).isReady f by cases f <;> rfl).trans (s.mg.isReady_setReady f false hf)

theorem State.mem_lost_loseFn (s : State) (f : Fn) : f ∈ (s.loseFn f).mg.lost := by
  unfold loseFn
  dsimp only
  split
  · rename_i h; simpa using h
  · exact List.mem_cons_self

theorem State.loseFn_domainsOff (s : State) (f : Fn) : (s.loseFn f).mg.domainsOff = s.mg.domainsOff :=
  s.mg.setReady_domainsOff f false

/-! ### Power domains (R444) -/

theorem State.failClusters_domainsOff (s : State) (l : List Nat) : (l.foldl failCluster s).mg.domainsOff = s.mg.domainsOff :=
  (foldl_keeps (Kept s) failCluster l s (Kept.refl s) fun _ k hu => hu.failCluster k).off

/-- What the loss of a domain does to the domains that are off: one more is. -/
theorem State.loseDomain_domainsOff (s : State) (d : Nat) :
    (s.loseDomain d).mg.domainsOff = if s.mg.domainsOff.contains d then s.mg.domainsOff else d :: s.mg.domainsOff := by
  unfold loseDomain
  split
  · rfl
  · dsimp only
    split
    · rw [loseFn_domainsOff, failClusters_domainsOff]; rfl
    · rw [failClusters_domainsOff]; rfl

theorem State.mem_domainsOff_loseDomain (s : State) (d : Nat) : d ∈ (s.loseDomain d).mg.domainsOff := by
  rw [loseDomain_domainsOff]
  split
  · rename_i h; simpa using h
  · exact List.mem_cons_self

theorem State.loseDomain_keeps_off (s : State) (d e : Nat) (h : e ∈ s.mg.domainsOff) : e ∈ (s.loseDomain d).mg.domainsOff := by
  rw [loseDomain_domainsOff]
  split
  · exact h
  · exact List.mem_cons_of_mem _ h

theorem State.goAround_domainsOff (s : State) : s.goAround.mg.domainsOff = s.mg.domainsOff := by
  unfold goAround
  split <;> rfl

theorem State.modGang_mg (s : State) (g : Nat) (f : Gang → Gang) : (s.modGang g f).mg = s.mg := by
  unfold modGang
  split <;> rfl

theorem State.doubleFault_mg (s : State) (g : Nat) : (s.doubleFault g).mg = s.mg := by
  unfold doubleFault
  split
  · rfl
  · exact foldl_keeps (fun t : State => t.mg = s.mg) _ _ _ (s.modGang_mg g _) fun _ _ h => h

/-- The loss of a chiplet changes the management plane as the loss of its function does. -/
theorem State.loseChiplet_mg (s : State) (c : Nat) : (s.loseChiplet c).mg = (s.loseFn (.rim c)).mg := by
  refine foldl_keeps (fun t : State => t.mg = (s.loseFn (.rim c)).mg) _ _ _ rfl fun t e h => ?_
  split
  · exact (t.doubleFault_mg e.1).trans h
  · exact h

/-- After the loss of a field's domains, all of them are off. -/
theorem State.loseField_domainsOff (s : State) (n q : Nat) (hq : q < 4) :
    4 * n + q ∈ ((List.range 4).foldl (fun s q => s.loseDomain (4 * n + q)) s).mg.domainsOff :=
  foldl_reaches (fun t : State => 4 * n + q ∈ t.mg.domainsOff) _ _ s q (List.mem_range.2 hq)
    (fun t => t.mem_domainsOff_loseDomain _) fun t h _ _ => t.loseDomain_keeps_off _ _ h

/-! ### Bring-up (R39, R40, R472) -/

/-- R39, R389, R472, R473: a module reset puts everything but fuses, host memory and the host's mappings at its reset value, and the
boot ROM sorts the images anew. -/
theorem moduleReset_resets (s : State) : Completes .moduleReset s (fun t => t.tiles = [] ∧ t.clusters = [] ∧ t.fens = [] ∧ t.dev = [] ∧
    t.net = [] ∧ t.rim = .reset ∧ t.cp = { Cp.reset with maps := s.cp.maps } ∧ t.clk.now = 0 ∧ t.clk.slew = 0 ∧ t.clk.dofsSet = false ∧
    t.mg.rdyc = 0 ∧ t.mg.rdym = 0 ∧ t.mg.rdyfa = 0 ∧ t.mg.rdyfb = 0 ∧ t.mg.attestKey = s.mg.attestKey + 1 ∧ t.mg.keyDigest = s.mg.keyDigest ∧
    t.mg.rollback = s.mg.rollback ∧ t.mg.identityKey = s.mg.identityKey ∧
    t.mg.fwLoaded = s.arg.fw.filter (fun c => s.mg.fwCause c == 0) ∧
    t.mg.fwRefused = (s.arg.fw.filter (fun c => s.mg.fwCause c != 0)).map (fun c => (c.kind, s.mg.fwCause c)) ∧ t.host = s.host) := by
  refine ⟨_, rfl, rfl, rfl, rfl, rfl, rfl, rfl, rfl, rfl, rfl, rfl, rfl, rfl, rfl, rfl, rfl, rfl, rfl, rfl, ?_, rfl, rfl⟩
  exact List.append_nil _

/-- A function whose bring-up has ended or whose step has not come yet does nothing. -/
theorem functionReady_idle (s : State) (h : s.mg.ended s.arg.fn = true ∨ s.mg.mayComeUp s.arg.fn = false) :
    Completes .functionReady s (fun t => t = s) := by
  refine ⟨s, ?_, rfl⟩
  show execFunctionReady s = _
  rcases h with h | h <;> simp [execFunctionReady, h]

/-- R472: without a verified image of each kind that it needs, the bring-up of a function has ended. -/
theorem Mgmt.ended_of_no_image (m : Mgmt) (f : Fn) (h : ∃ k ∈ needsOf f, ∀ c ∈ m.fwLoaded, c.kind ≠ k) : m.ended f = true := by
  obtain ⟨k, hk, hc⟩ := h
  have hi : m.image k = none := by simpa [image] using hc
  have hn : (needsOf f).any (fun k => (m.image k).isNone) = true := List.any_eq_true.2 ⟨k, hk, by simp [hi]⟩
  simp [ended, hn]

theorem functionReady_testFails (s : State) (he : s.mg.ended s.arg.fn = false) (hm : s.mg.mayComeUp s.arg.fn = true) (hb : s.arg.b = true) :
    Completes .functionReady s (fun t => t = { s with mg := { s.mg with testFailed := s.mg.testFailed ++ [(s.arg.fn, s.arg.i)] } }) := by
  refine ⟨_, ?_, rfl⟩
  show execFunctionReady s = _
  simp [execFunctionReady, he, hm, hb, State.modMg]

/-- What starting cores puts at each core. -/
theorem State.tile_bootTiles (fw : Mem) (l : List Nat) (s : State) (k : Nat) :
    (l.foldl (fun s k => s.setTile k (bootTile k fw)) s).tile k = if k ∈ l then bootTile k fw else s.tile k := by
  induction l generalizing s with
  | nil => rfl
  | cons j r ih =>
    rw [List.foldl_cons, ih]
    by_cases hk : k = j
    · subst hk; simp
    · simp [hk, tile_setTile_other _ _ _ _ hk]

theorem State.mg_bootTiles (fw : Mem) (l : List Nat) (s : State) : (l.foldl (fun s k => s.setTile k (bootTile k fw)) s).mg = s.mg :=
  foldl_keeps (fun t : State => t.mg = s.mg) _ l s rfl fun _ _ h => h

/-- R39, R40, R472: a function that is ready sets its bit, and its cores start their image at offset 0. -/
theorem functionReady_starts (s : State) (he : s.mg.ended s.arg.fn = false) (hm : s.mg.mayComeUp s.arg.fn = true) (hb : s.arg.b = false) :
    Completes .functionReady s (fun t => t.mg = s.mg.setReady s.arg.fn true ∧ (FnOk s.arg.fn → t.mg.isReady s.arg.fn = true) ∧
      ∀ k, if k ∈ s.coresOf s.arg.fn then ((t.tile k).ctx 0).run = .ready ∧ ((t.tile k).ctx 0).pc = 0 ∧ (t.tile k).pool = s.mg.bootImage s.arg.fn
        else t.tile k = s.tile k) := by
  refine ⟨(s.coresOf s.arg.fn).foldl (fun u k => u.setTile k (bootTile k (s.mg.bootImage s.arg.fn)))
    (s.modMg fun m => m.setReady s.arg.fn true), ?_, State.mg_bootTiles .., fun hf => ?_, fun k => ?_⟩
  · show execFunctionReady s = _
    simp [execFunctionReady, he, hm, hb]
  · rw [State.mg_bootTiles]; exact s.mg.isReady_setReady _ true hf
  · rw [State.tile_bootTiles]
    split
    · exact ⟨congrArg Ctx.run (Tile.ctx_modCtx _ 0 _), congrArg Ctx.pc (Tile.ctx_modCtx _ 0 _), rfl⟩
    · rfl

/-- R40, R444, R445: a lost function is not ready any more, and a field takes its power domains with it. -/
theorem functionLost_clears (s : State) (hr : s.mg.isReady s.arg.fn = true) (hf : FnOk s.arg.fn) :
    Completes .functionLost s (fun t => t.mg.isReady s.arg.fn = false ∧
      s.arg.fn ∈ t.mg.lost ∧ ∀ n, s.arg.fn = .field n → ∀ q, q < 4 → 4 * n + q ∈ t.mg.domainsOff) := by
  simp only [completes_iff (show exec .functionLost s = execFunctionLost s from rfl), execFunctionLost]
  generalize s.arg.fn = f at hr hf
  simp only [hr, Bool.not_true, Bool.false_eq_true, if_false]
  cases f with
  | field n =>
    refine ⟨_, rfl, State.loseFn_notReady _ _ hf, State.mem_lost_loseFn _ _, fun m hm q hq => ?_⟩
    cases hm
    rw [State.loseFn_domainsOff]
    exact s.loseField_domainsOff n q hq
  | rim n =>
    refine ⟨_, rfl, ?_, ?_, nofun⟩ <;> rw [State.loseChiplet_mg]
    · exact s.loseFn_notReady _ hf
    · exact s.mem_lost_loseFn _
  | _ => exact ⟨_, rfl, s.loseFn_notReady _ hf, s.mem_lost_loseFn _, nofun⟩

end Sys2Proof.Machine
end

section
/-! SUPPORT. The device clock, power and cooling (R36 to R38, R390). -/

namespace Sys2Proof.Machine

open Sys2Proof.Claims

/-! ### The device clock (R42, R390) -/

/-- R390: the servo sets the rate alone, within 100 ppm. -/
theorem State.disciplined_slew (s : State) (w : Word) : -100 ≤ (s.disciplined w).clk.slew ∧ (s.disciplined w).clk.slew ≤ 100 := by
  simp only [disciplined]; omega

theorem clockLockGained_locks (s : State) (h : s.mg.rdyc.getLsbD 4 = false) : Completes .clockLockGained s (fun t =>
    t.mg.rdyc.getLsbD 4 = true ∧ t.clk.now = s.clk.now ∧ t.clk.dofsSet = true ∧
    t.clk.dofs = (if s.clk.dofsSet then s.clk.dofs else s.arg.w - s.time) ∧ -100 ≤ t.clk.slew ∧ t.clk.slew ≤ 100) := by
  have hb (x : Word) : (setFld x 4 4 1).getLsbD 4 = true := getLsbD_setFld_same x 4 (by decide) true
  simp only [completes_iff (show exec .clockLockGained s = execClockLockGained s from rfl), execClockLockGained, h,
    Bool.false_eq_true, if_false]
  cases hd : s.clk.dofsSet
  · exact ⟨_, rfl, hb _, rfl, rfl, rfl, State.disciplined_slew _ _⟩
  · exact ⟨_, rfl, hb _, rfl, hd, rfl, State.disciplined_slew _ _⟩

theorem clockLockLost_clears (s : State) : Completes .clockLockLost s (fun t => t.mg.rdyc.getLsbD 4 = false ∧ t.clk = s.clk) :=
  ⟨_, rfl, getLsbD_setFld_same s.mg.rdyc 4 (by decide) false, rfl⟩

/-- R390, R459: a ready port hears a master's announcement in its domain, or that it has timed out. -/
theorem ptpMessage_announces (s : State) (hn : s.arg.n < 16) (hr : s.mg.isReady (.belvis s.arg.n) = true)
    (hd : s.mg.domainNumber = BitVec.ofNat 64 s.arg.j) (hb : s.arg.b = true) :
    Completes .ptpMessage s (fun t => t = { s with clk := { s.clk with announce := t.clk.announce } } ∧
      Tbl.look t.clk.announce s.arg.n = if s.arg.i = 0 then some s.arg.x.toNat else none) := by
  refine ⟨{ s with clk := { s.clk with announce := (if s.arg.i ≠ 0 then Tbl.drop s.clk.announce s.arg.n
    else Tbl.put s.clk.announce s.arg.n s.arg.x.toNat) } }, ?_, rfl, ?_⟩
  · show execPtpMessage s = _
    simp [execPtpMessage, hn, hr, hd, hb]
  · by_cases hi : s.arg.i = 0
    · simp [hi, Tbl.look_put_same]
    · simp [hi, Tbl.look_drop_same]

/-- R390: time from another port than the best master's does not count. -/
theorem ptpMessage_otherPort (s : State) (hb : s.arg.b = false) (hp : s.masterPort ≠ some s.arg.n) : Completes .ptpMessage s (fun t => t = s) := by
  refine ⟨s, ?_, rfl⟩
  show execPtpMessage s = _
  simp [execPtpMessage, hb, hp]

theorem ptpMessage_disciplines (s : State) (hn : s.arg.n < 16) (hr : s.mg.isReady (.belvis s.arg.n) = true) (hl : s.mg.rdyc.getLsbD 4 = true)
    (hd : s.mg.domainNumber = BitVec.ofNat 64 s.arg.j) (hb : s.arg.b = false) (hp : s.masterPort = some s.arg.n) :
    Completes .ptpMessage s (fun t => t = { s with clk := t.clk } ∧ t.clk.now = s.clk.now ∧ t.clk.dofs = s.clk.dofs ∧ -100 ≤ t.clk.slew ∧ t.clk.slew ≤ 100) := by
  refine ⟨s.disciplined s.arg.w, ?_, rfl, rfl, rfl, s.disciplined_slew _⟩
  show execPtpMessage s = _
  simp only [execPtpMessage, hn, hr, hd, hb, hp, hl, decide_true, Bool.and_self, beq_self_eq_true, Bool.not_true, Bool.false_eq_true,
    if_false, and_self, if_true]

/-! ### Power and cooling (R36 to R38) -/

/-- A proportional share of a budget is no more than the budget. -/
theorem share_le (budget : Nat) (f : Nat → Nat) (n d : Nat) (hd : d < n) :
    budget * f d / max (((List.range n).map f).foldl (fun a b => a + b) 0) 1 ≤ budget := by
  have hm : f d ∈ (List.range n).map f := List.mem_map.2 ⟨d, List.mem_range.2 hd, rfl⟩
  have hs : f d ≤ ((List.range n).map f).foldl (fun a b => a + b) 0 :=
    foldl_reaches (fun x => f d ≤ x) _ _ 0 (f d) hm (fun b => Nat.le_add_left (f d) b) fun b hb x _ => Nat.le_trans hb (Nat.le_add_right b x)
  refine Nat.div_le_of_le_mul ?_
  rw [Nat.mul_comm]
  exact Nat.mul_le_mul_right _ (Nat.le_trans hs (Nat.le_max_left ..))

/-- R37: a domain is paced to 8, to 1 to 15, or to all of the 16 sixteenths. -/
theorem duty_range (p q : Prop) [Decidable p] [Decidable q] (x : Nat) :
    1 ≤ (if p then 8 else if q then 1 + x % 15 else 16) ∧ (if p then 8 else if q then 1 + x % 15 else 16) ≤ 16 := by
  by_cases hp : p
  · rw [if_pos hp]; omega
  · by_cases hq : q
    · rw [if_neg hp, if_pos hq]; omega
    · rw [if_neg hp, if_neg hq]; omega

/-- R36 to R38: the Crown divides the budget in grants within it, paces each domain to 1 to 16 sixteenths, and keeps what it measured. -/
theorem crownBudgetDivision_divides (s : State) (h : s.mg.rdyc.getLsbD 3 = true) : Completes .crownBudgetDivision s (fun t =>
    t = { s with mg := t.mg } ∧ t.mg.afSeen = s.cp.afh.setWidth 16 ∧
    ∀ d, d < 336 → Tbl.get t.mg.currents d 0 = s.arg.nums.getD d 0 ∧ Tbl.get t.mg.grants d 0 ≤ s.mg.budget ∧
      1 ≤ Tbl.get t.mg.duties d 16 ∧ Tbl.get t.mg.duties d 16 ≤ 16) := by
  simp only [completes_iff (show exec .crownBudgetDivision s = execCrownBudgetDivision s from rfl), execCrownBudgetDivision, h,
    Bool.not_true, Bool.false_eq_true, if_false]
  refine ⟨_, rfl, rfl, rfl, fun d hd => ?_⟩
  have hm : d ∈ List.range 336 := List.mem_range.2 hd
  simp only [State.mg_modMg]
  rw [Tbl.get_tabulate _ _ d 0 hm, Tbl.get_tabulate _ _ d 0 hm, Tbl.get_tabulate _ _ d 16 hm]
  have hg := share_le s.mg.budget (fun d => s.arg.nums.getD d 0 + Config.forecastShare (Tbl.get s.crownForecast.1 d 0).toNat) 336 d hd
  exact ⟨rfl, hg, duty_range _ _ _⟩

/-- R38: a junction is hot from 105 °C until it is below it again. -/
theorem junctionThreshold105_marks (s : State) : Completes .junctionThreshold105 s (fun t =>
    (s.arg.n ∈ t.mg.hot ↔ s.arg.b = false) ∧ t = { s with mg := { s.mg with hot := t.mg.hot } }) := by
  refine ⟨_, rfl, ?_, rfl⟩
  simp only [State.mg_modMg]
  cases s.arg.b with
  | true => simp
  | false =>
    simp only [Bool.false_eq_true, if_false, iff_true]
    split
    · rename_i hc; simpa using hc
    · exact List.mem_cons_self

/-- R38, R444: the loss of a domain leaves it off, whatever goes around it. -/
theorem State.mem_off_goAround (s : State) (d : Nat) : d ∈ (s.loseDomain d).goAround.mg.domainsOff := by
  rw [goAround_domainsOff]; exact s.mem_domainsOff_loseDomain d

theorem junctionThreshold115_switchesOff (s : State) : Completes .junctionThreshold115 s (fun t => s.arg.n ∈ t.mg.domainsOff) :=
  ⟨_, rfl, s.mem_off_goAround _⟩

theorem powerDomainLoss_switchesOff (s : State) : Completes .powerDomainLoss s (fun t => s.arg.n ∈ t.mg.domainsOff) :=
  ⟨_, rfl, s.mem_off_goAround _⟩

theorem coolantFlowAlarm_lowersBudget (s : State) : Completes .coolantFlowAlarm s (fun t =>
    t = { s with mg := { s.mg with budget := 8000, alarm := true, msix := 1 :: s.mg.msix, coolant := s.arg.nums } }) := ⟨_, rfl, rfl⟩

theorem coolantFlowReturn_restoresBudget (s : State) : Completes .coolantFlowReturn s (fun t =>
    t = { s with mg := { s.mg with budget := 27000, alarm := false, coolant := s.arg.nums } }) := ⟨_, rfl, rfl⟩

end Sys2Proof.Machine
end

section
/-! SUPPORT. Heartbeats, watchdogs and retests (R17, R19, R25, R430, R431, R441, R470). -/

namespace Sys2Proof.Machine

open Sys2Proof.Claims

/-! ### Heartbeats and watchdogs (R17, R430, R431, R470) -/

theorem helhalHeartbeat_beats (s : State) (h : s.cp.hung = false) :
    Completes .helhalHeartbeat s (fun t => t = { s with cp := { s.cp with beat := true } }) := by
  refine ⟨_, ?_, rfl⟩
  show execHelhalHeartbeat s = _
  simp [execHelhalHeartbeat, h]

/-- R470: a period without a heartbeat hangs the command processor, one with it clears the heartbeat for the next. -/
theorem commandProcessorHung_judges (s : State) (h : s.cp.hung = false) :
    (s.cp.beat = true → Completes .commandProcessorHung s (fun t => t = { s with cp := { s.cp with beat := false } })) ∧
    (s.cp.beat = false → Completes .commandProcessorHung s (fun t => t.cp.hung = true ∧ t.mg.msix = 0 :: s.mg.msix ∧ t.tiles = s.tiles)) := by
  simp only [completes_iff (show exec .commandProcessorHung s = execCommandProcessorHung s from rfl), execCommandProcessorHung]
  constructor <;> intro hb <;> simp only [h, hb, Bool.false_eq_true, if_false, if_true]
  · exact ⟨_, rfl, rfl⟩
  · exact ⟨_, rfl, rfl, rfl, rfl⟩

theorem coreHeartbeat_beats (s : State) (hb : s.arg.b = false) (hf : (s.tile s.arg.n).vol.failed = false) :
    Completes .coreHeartbeat s (fun t => (t.tile (s.hostOf s.arg.n)).vol.beat = true) := by
  refine ⟨s.modTile (s.hostOf s.arg.n) fun t => t.modVol fun v => { v with beat := true }, ?_, by simp⟩
  show execCoreHeartbeat s = _
  simp [execCoreHeartbeat, hb, hf]

theorem coreHeartbeat_idleSite (s : State) (hb : s.arg.b = true) (hi : s.siteIdle s.arg.n s.arg.i = true) :
    Completes .coreHeartbeat s (fun t => t = { s with mg := t.mg } ∧ (∀ e, e ∈ t.mg.silent ↔ e ∈ s.mg.silent ∧ e ≠ 32 * s.arg.n + s.arg.i) ∧
      t.mg.badSites = s.mg.badSites) := by
  refine ⟨{ s with mg := { s.mg with silent := s.mg.silent.filter (fun e => e != 32 * s.arg.n + s.arg.i) } }, ?_, rfl, ?_, rfl⟩
  · show execCoreHeartbeat s = _
    simp [execCoreHeartbeat, hb, hi]
  · simp

/-- R431: a tile that stops on a detection event has failed. -/
theorem State.failTile_failed (s : State) (core : Nat) : ((s.failTile core).tile core).vol.failed = true :=
  (Kept.unprotect (Kept.refl _) _).failed core (by simp)

/-- A tile runs on its own site. -/
theorem State.mem_siteTiles (s : State) (core : Nat) : core ∈ s.siteTiles core := by
  unfold siteTiles
  cases h : Tbl.look s.mg.twins core with
  | none => simp
  | some k =>
    exact List.mem_cons_of_mem _ (List.mem_map.2 ⟨(core, k), List.mem_filter.2 ⟨Tbl.mem_of_look _ _ _ h, by simp⟩, rfl⟩)

/-- R431, R442: when its site fails, a tile has failed. -/
theorem State.failSite_failed (s : State) (core : Nat) : ((s.failSite core).tile core).vol.failed = true := by
  refine foldl_reaches (fun t : State => (t.tile core).vol.failed = true) _ _ s core (s.mem_siteTiles core) (fun t => ?_) fun t ht k _ => ?_
  · split
    · rename_i h; exact (Bool.and_eq_true_iff.1 h).1
    · exact t.failTile_failed core
  · split
    · exact ht
    · exact ((Kept.refl t).failTile k).failed core ht

/-- R430: the watchdog of a tile's site clears a heartbeat that has come; without one the tile stops. -/
theorem watchdogExpiry_judges (s : State) (hb : s.arg.b = false) (hn : s.arg.n < 30720) (hf : (s.tile s.arg.n).vol.failed = false) :
    ((s.tile (s.hostOf s.arg.n)).vol.beat = true → Completes .watchdogExpiry s (fun t =>
      (t.tile (s.hostOf s.arg.n)).vol.beat = false ∧ (t.tile s.arg.n).vol.failed = false)) ∧
    ((s.tile (s.hostOf s.arg.n)).vol.beat = false → Completes .watchdogExpiry s (fun t => (t.tile s.arg.n).vol.failed = true)) := by
  have ht : isTile s.arg.n = true := decide_eq_true hn
  simp only [completes_iff (show exec .watchdogExpiry s = execWatchdogExpiry s from rfl), execWatchdogExpiry, hb, ht, hf,
    Bool.not_true, Bool.false_eq_true, or_self, if_false]
  constructor <;> intro hbeat <;> simp only [hbeat, Bool.false_eq_true, if_false, if_true]
  · refine ⟨_, rfl, by simp, ?_⟩
    by_cases h : s.arg.n = s.hostOf s.arg.n
    · rw [← h, State.tile_modTile]; exact hf
    · rw [State.tile_modTile_other _ _ _ _ h]; exact hf
  · exact ⟨_, rfl, s.failSite_failed _⟩

/-- R19: a site that leaves service is out of service. -/
theorem State.mem_badSites_badSite (s : State) (p site : Nat) : site ∈ (s.badSite p site).badSites p := by
  have h : (s.badSite p site).badSites p = if (s.badSites p).contains site then s.badSites p else site :: s.badSites p :=
    Tbl.get_put_same ..
  rw [h]
  split
  · rename_i hc; simpa using hc
  · exact List.mem_cons_self

theorem watchdogExpiry_idleSite (s : State) (hb : s.arg.b = true) (hi : s.siteIdle s.arg.n s.arg.i = true) :
    (32 * s.arg.n + s.arg.i ∉ s.mg.silent → Completes .watchdogExpiry s (fun t => 32 * s.arg.n + s.arg.i ∈ t.mg.silent ∧ t.mg.badSites = s.mg.badSites)) ∧
    (32 * s.arg.n + s.arg.i ∈ s.mg.silent → Completes .watchdogExpiry s (fun t => s.arg.i ∈ t.badSites s.arg.n)) := by
  simp only [completes_iff (show exec .watchdogExpiry s = execWatchdogExpiry s from rfl), execWatchdogExpiry, hb, hi,
    Bool.not_true, Bool.false_eq_true, if_false, if_true, List.contains_eq_mem, decide_eq_true_eq]
  constructor <;> intro hm <;> simp only [hm, if_false, if_true]
  · exact ⟨_, rfl, List.mem_cons_self, rfl⟩
  · exact ⟨_, rfl, s.mem_badSites_badSite _ _⟩

/-- R430, R431: the watchdog of a TSC clears its heartbeat; without one the TSC starts again, and the requests that it had taken stand again. -/
theorem tscWatchdogExpiry_judges (s : State) (k : Nat) (hk : k = s.arg.n) :
    ((s.cluster k).tscBeat = true → Completes .tscWatchdogExpiry s (fun t => (t.cluster k).tscBeat = false ∧ t.tiles = s.tiles)) ∧
    ((s.cluster k).tscBeat = false → Completes .tscWatchdogExpiry s (fun t => (t.cluster k).tscBeat = true ∧ ((t.tile (30720 + k)).ctx 0).run = .ready ∧
      ((t.tile (30720 + k)).ctx 0).pc = 0 ∧ (t.tile (30720 + k)).pool = (s.tile (30720 + k)).pool ∧
      (t.cluster k).reqs = (s.cluster k).reqs.map (fun r => { r with taken := false }))) := by
  subst hk
  have hboot : (s.restartTsc s.arg.n).tile (30720 + s.arg.n) = bootTile (30720 + s.arg.n) (s.tile (30720 + s.arg.n)).pool :=
    State.tile_setTile s (30720 + s.arg.n) _
  have hcl : (s.restartTsc s.arg.n).cluster s.arg.n =
      { s.cluster s.arg.n with reqs := (s.cluster s.arg.n).reqs.map (fun r => { r with taken := false }), tscBeat := true } :=
    State.cluster_modCluster _ _ _
  simp only [completes_iff (show exec .tscWatchdogExpiry s = execTscWatchdogExpiry s from rfl), execTscWatchdogExpiry]
  constructor <;> intro hb <;> simp only [hb, Bool.false_eq_true, if_false, if_true]
  · exact ⟨_, rfl, by simp, rfl⟩
  · refine ⟨_, rfl, ?_⟩
    rw [hboot, hcl]
    exact ⟨rfl, congrArg Ctx.run (Tile.ctx_modCtx _ 0 _), congrArg Ctx.pc (Tile.ctx_modCtx _ 0 _), rfl, rfl⟩

/-! ### Retests (R17, R19, R441) -/

theorem backgroundRetest_recorded (s : State) (h : (s.badSites (s.pcnOf s.arg.n)).contains s.arg.i = true) :
    Completes .backgroundRetest s (fun t => t = { s with mg := { s.mg with retests := s.mg.retests ++ [(s.arg.n, s.arg.i, s.arg.b)] } }) := by
  refine ⟨_, ?_, rfl⟩
  show execBackgroundRetest s = _
  simp only [execBackgroundRetest, h, if_true]

/-- The positions of a cluster are tiles of their own. -/
theorem tileAt_inj (k p q : Nat) (_hp : p < 16) (_hq : q < 16) (h : tileAt k p = tileAt k q) : p = q := by
  simp only [tileAt, tileNo] at h; omega

theorem State.modTiles_mg (g : Nat → Nat) (f : Nat → Tile → Tile) (l : List Nat) (s : State) :
    (l.foldl (fun s p => s.modTile (g p) (f p)) s).mg = s.mg :=
  foldl_keeps (fun t : State => t.mg = s.mg) _ l s rfl fun _ _ h => h

theorem State.modTiles_clusters (g : Nat → Nat) (f : Nat → Tile → Tile) (l : List Nat) (s : State) :
    (l.foldl (fun s p => s.modTile (g p) (f p)) s).clusters = s.clusters :=
  foldl_keeps (fun t : State => t.clusters = s.clusters) _ l s rfl fun _ _ h => h

theorem State.oweFull_mg (s : State) (l : List Nat) : (s.oweFull l).mg = s.mg :=
  foldl_keeps (fun t : State => t.mg = s.mg) _ l s rfl fun t w h => by split <;> exact h

theorem State.oweFull_clusters (s : State) (l : List Nat) : (s.oweFull l).clusters = s.clusters :=
  foldl_keeps (fun t : State => t.clusters = s.clusters) _ l s rfl fun t w h => by split <;> exact h

/-- A tile that comes to owe a full boundary has failed or not as before. -/
theorem State.oweFull_failed (s : State) (l : List Nat) (k : Nat) : ((s.oweFull l).tile k).vol.failed = (s.tile k).vol.failed := by
  refine foldl_keeps (fun t : State => (t.tile k).vol.failed = (s.tile k).vol.failed) _ l s rfl fun t w h => ?_
  split
  · exact h
  · by_cases hk : k = w
    · subst hk; simpa using h
    · rw [tile_modTile_other _ _ _ _ hk]; exact h

/-- The result of a full retest of a cluster's positions: each has failed or not as its site has. -/
theorem State.failed_retested (s : State) (k : Nat) (bad : Nat → Bool) (p : Nat) (hp : p < 16) :
    (((List.range 16).foldl (fun s p => s.modTile (tileAt k p) fun t => t.modVol fun v => { v with failed := bad p, detected := false }) s).tile
      (tileAt k p)).vol.failed = bad p := by
  refine foldl_reaches (fun t : State => (t.tile (tileAt k p)).vol.failed = bad p) _ _ s p (List.mem_range.2 hp) (fun t => by simp) fun t ht q hq => ?_
  by_cases h : p = q
  · subst h; simp
  · rw [tile_modTile_other _ _ _ _ fun e => h (tileAt_inj k p q hp (List.mem_range.1 hq) e)]; exact ht

theorem fullReTest_renews (s : State) (k : Nat) (hk : k = s.arg.n) (hn : k < 1920) (hg : ∀ p, p < 16 → (s.tile (tileAt k p)).blk.lr.gang = none)
    (hs : s.mg.shadow = none) (hr : ∀ x ∈ s.mg.repairs, clusterOf x ≠ k) :
    Completes .fullReTest s (fun t => t.mg.mgen = s.mg.mgen + 1 ∧ t.causeway k = (true, k) ∧ (∀ p, t.posMap k p = (p, p)) ∧
      t.badSites k = s.arg.nums ∧ ∀ p, p < 16 → (t.tile (tileAt k p)).vol.failed = (s.arg.nums.contains p || s.arg.nums.contains 17)) := by
  subst hk
  have hlow : ¬ 1920 ≤ s.arg.n := by omega
  have hbusy : ¬ (((List.range 16).map (tileAt s.arg.n)).any (fun t => (s.tile t).blk.lr.gang.isSome) = true ∨ s.mg.shadow.isSome = true ∨
      s.mg.repairs.any (fun t => clusterOf t == s.arg.n) = true) := by
    simpa [hs] using ⟨hg, hr⟩
  simp only [completes_iff (show exec .fullReTest s = execFullReTest s from rfl), execFullReTest, hlow, hbusy, if_false]
  refine ⟨_, rfl, ?_⟩
  simp only [State.causeway, State.posMap, State.cluster, State.badSites, State.oweFull_mg, State.oweFull_clusters,
    State.oweFull_failed, State.modTiles_mg, State.modTiles_clusters]
  refine ⟨rfl, ?_, fun p => ?_, Tbl.get_put_same .., fun p hp => State.failed_retested _ _ _ p hp⟩
  · simp [State.newGeneration, Tbl.get, Tbl.look_drop_same]
  · simp [State.newGeneration, State.modCluster, Tbl.get, Tbl.look, Tbl.look_put_same]

theorem fullReTest_spare (s : State) (h1 : 1920 ≤ s.arg.n) (h2 : s.arg.n < 2016) (hc : s.carriedBy s.arg.n = none) :
    Completes .fullReTest s (fun t => t.badSites s.arg.n = s.arg.nums ∧ t.tiles = s.tiles ∧ t.mg.cause = s.mg.cause) := by
  simp only [completes_iff (show exec .fullReTest s = execFullReTest s from rfl), execFullReTest, h1, h2, hc, and_self, if_true]
  exact ⟨_, rfl, Tbl.get_put_same .., rfl, rfl⟩

end Sys2Proof.Machine
end

section
/-! SUPPORT. The recovery mailbox and answers to page requests (R375, R467, R471 to R473). -/

namespace Sys2Proof.Machine

open Sys2Proof.Claims

/-! ### The recovery mailbox (R375, R471, R472, R473) -/

theorem HostQ.bytes_length (k : HostQ) : k.bytes.length = 64 := by simp [bytes, leBytes_length]

/-- R471: a copy of the queue table shows the descriptor of every queue. -/
theorem mailboxRead_queues (s : State) (h : s.mailOp 0 = 1) : Completes .mailboxRead s (fun t =>
    t.mg.mailCmd = BitVec.ofNat 64 (2 ^ 63 + 1) ∧ ∀ q, q < 1024 → Mem.bytes t.mg.window (64 * q) 64 = (s.queue q).bytes) := by
  have hw : ∀ q, q < 1024 → Mem.bytes (Mem.write s.mg.window 0 ((List.range 1024).flatMap fun q => (s.queue q).bytes)) (64 * q) 64 =
      (s.queue q).bytes := fun q hq => by
    rw [Mem.bytes_write_within, take_drop_flatMap_range _ 64 1024 q (fun i => (s.queue i).bytes_length) hq]
    rw [length_flatMap_range _ 64 1024 fun i => (s.queue i).bytes_length]
    omega
  simp only [completes_iff (show exec .mailboxRead s = execMailboxRead s from rfl), execMailboxRead]
  rw [h]
  exact ⟨_, rfl, rfl, hw⟩

/-- R317, R319: leaving A changes of a queue only whether it has joined. -/
theorem State.queue_leaveA (s : State) (q : Nat) :
    s.leaveA.queue q = if s.inA q then s.queue q else { s.queue q with joined := false } := by
  have h : Tbl.look s.leaveA.cp.queues q = (Tbl.look s.cp.queues q).map fun k => if s.inA q then k else { k with joined := false } :=
    Tbl.look_map (fun q (k : HostQ) => if s.inA q then k else { k with joined := false }) s.cp.queues q
  unfold queue Tbl.get
  rw [h]
  cases Tbl.look s.cp.queues q <;> split <;> rfl

/-- R467: a queue in the error state says which error it met. -/
theorem State.queueError_queue (s : State) (q err : Nat) :
    ((s.queueError q err).queue q).state = 2 ∧ ((s.queueError q err).queue q).err = err := by
  have hm : (s.modQueue q fun k => { k with state := 2, err := err, wait := none, joined := false }).queue q =
      { s.queue q with state := 2, err := err, wait := none, joined := false } := Tbl.get_put_same ..
  have he : (s.queueError q err).queue q = ((s.modQueue q fun k => { k with state := 2, err := err, wait := none, joined := false }).endTurn q).queue q := rfl
  rw [he]
  unfold endTurn
  split
  · rw [queue_leaveA]
    split <;> exact ⟨congrArg HostQ.state hm, congrArg HostQ.err hm⟩
  · exact ⟨congrArg HostQ.state hm, congrArg HostQ.err hm⟩

/-- R471: a mailbox step runs the head packet of a queue that has tickets and no halt freezes. -/
theorem mailboxStep_runs (s : State) (q : Nat) (hq : q = (s.mailOp 0).toNat % 1024) :
    (s.frozen q = true ∨ (s.queue q).tkt = 0 → exec .mailboxStep s = .next (s.mailed 2)) ∧
    (s.frozen q = false → (s.queue q).tkt ≠ 0 → exec .mailboxStep s = .next ((s.runHead q).mailed 2)) := by
  subst hq
  show (_ → execMailboxStep s = _) ∧ (_ → _ → execMailboxStep s = _)
  constructor
  · rintro (h | h) <;> simp [execMailboxStep, h]
  · intro hf ht
    have hz : ((s.queue ((s.mailOp 0).toNat % 1024)).tkt == 0) = false := beq_eq_false_iff_ne.2 ht
    simp only [execMailboxStep, hf, hz, Bool.or_self, Bool.false_eq_true, if_false]

/-- R471, R467: a malformed packet puts its queue into the error state. -/
theorem mailboxStep_malformed (s : State) (q : Nat) (hq : q = (s.mailOp 0).toNat % 1024) (hf : s.frozen q = false) (ha : s.inA q = true)
    (hp : s.headPacket q = .malformed) : Completes .mailboxStep s (fun t =>
      t.mg.mailCmd = BitVec.ofNat 64 (2 ^ 63 + 2) ∧ (t.queue q).state = 2 ∧ (t.queue q).err = 1) := by
  have ht : (s.queue q).tkt ≠ 0 := by
    intro h0
    simp [State.inA, h0] at ha
  have hr : s.runHead q = s.queueError q 1 := by simp only [State.runHead, hp]
  refine ⟨_, (mailboxStep_runs s q hq).2 hf ht, rfl, ?_⟩
  rw [hr]
  exact s.queueError_queue q 1

/-- A list in which every number below `n` stands has at least `n` entries. -/
theorem le_length_of_covers (n : Nat) (l : List Nat) (h : ∀ i, i < n → i ∈ l) : n ≤ l.length := by
  induction n generalizing l with
  | zero => exact Nat.zero_le _
  | succ n ih =>
    have hn : n ∈ l := h n (Nat.lt_succ_self n)
    have hr := ih (l.erase n) fun i hi => (List.mem_erase_of_ne (Nat.ne_of_lt hi)).2 (h i (Nat.lt_succ_of_lt hi))
    rw [List.length_erase_of_mem hn] at hr
    have hp := List.length_pos_of_mem hn
    omega

/-- A TSC's request queue that is not full has a free slot (R375). -/
theorem exists_free_slot (l : List TscReq) (h : l.length < 64) : ∃ i, (List.range 64).find? (fun i => l.all (fun r => r.slot != i)) = some i := by
  cases hf : (List.range 64).find? (fun i => l.all (fun r => r.slot != i)) with
  | some i => exact ⟨i, rfl⟩
  | none =>
    have hc := le_length_of_covers 64 (l.map TscReq.slot) fun i hi => by
      simpa using List.find?_eq_none.1 hf i (List.mem_range.2 hi)
    rw [List.length_map] at hc
    omega

/-- An answer to the page request `p` has gone to its cluster's TSC, as the youngest request there (R375). -/
structure PageAnswered (s t : State) (p : PageReq) (res : Nat) : Prop where
  gone : p ∉ t.cp.pages
  request : ∃ r, (t.cluster p.cluster).reqs = (s.cluster p.cluster).reqs ++ [r] ∧ r.acc = 3 ∧ r.tag = p.tag ∧
    r.res = res % 4 ∧ r.addr = p.addr ∧ r.taken = false

theorem State.answerPage_spec (s : State) (p : PageReq) (tag : BitVec 16) (res : Nat) (hp : s.cp.pages.find? (fun p => p.tag == tag) = some p)
    (hl : (s.cluster p.cluster).reqs.length < 64) : ∃ t, s.answerPage tag res = some t ∧ PageAnswered s t p res := by
  obtain ⟨i, hi⟩ := exists_free_slot _ hl
  unfold answerPage
  rw [hp]
  dsimp only
  rw [hi]
  exact ⟨_, rfl, by simp, _, congrArg Cluster.reqs (cluster_modCluster _ _ _), rfl, rfl, rfl, rfl, rfl⟩

theorem pageAnswer_delivered (s : State) (p : PageReq) (tag : BitVec 16) (res : Nat) (i : Instr) (hp : s.cp.pages.find? (fun p => p.tag == tag) = some p)
    (hl : (s.cluster p.cluster).reqs.length < 64)
    (hi : (i = .mailboxAnswer ∧ tag = (s.mailOp 0).setWidth 16 ∧ res = (s.mailOp 1).toNat) ∨
      (i = .hostPageAnswer ∧ s.cp.hung = false ∧ tag = BitVec.ofNat 16 s.arg.n ∧ res = s.arg.j)) :
    Completes i s (fun t => p ∉ t.cp.pages ∧ ∃ r, (t.cluster p.cluster).reqs = (s.cluster p.cluster).reqs ++ [r] ∧ r.acc = 3 ∧ r.tag = p.tag ∧
      r.res = res % 4 ∧ r.addr = p.addr ∧ r.taken = false ∧ (i = .mailboxAnswer → t.mg.mailCmd = BitVec.ofNat 64 (2 ^ 63 + 3))) := by
  obtain ⟨t, ht, hgone, r, hr⟩ := s.answerPage_spec p tag res hp hl
  obtain ⟨hreqs, hacc, htag, hres, haddr, htaken⟩ := hr
  rcases hi with ⟨rfl, rfl, rfl⟩ | ⟨rfl, hh, rfl, rfl⟩
  · refine ⟨t.mailed 3, ?_, hgone, r, hreqs, hacc, htag, hres, haddr, htaken, fun _ => rfl⟩
    show execMailboxAnswer s = _
    simp [execMailboxAnswer, ht]
  · refine ⟨t, ?_, hgone, r, hreqs, hacc, htag, hres, haddr, htaken, nofun⟩
    show execHostPageAnswer s = _
    simp [execHostPageAnswer, hh, ht]

/-- R35: what has waited for the command processor is taken up without a change of its heartbeat or of the event ring. -/
theorem State.mailed_catchUp (s : State) (cmd : Nat) : (s.catchUp.mailed cmd).cp.hung = s.cp.hung ∧
    (s.catchUp.mailed cmd).cp.beat = s.cp.beat ∧ (s.catchUp.mailed cmd).mg.events = s.mg.events :=
  have h := (Kept.refl s).catchUp
  ⟨h.hung, h.beat, h.events⟩

/-- R471, R472: a verified Helhal runs again, with the event ring drained; a refused one changes nothing of the command processor. -/
theorem mailboxRestart_reloads (s : State) : Completes .mailboxRestart s (fun t => t.mg.mailCmd = BitVec.ofNat 64 (2 ^ 63 + 4) ∧
    if s.arg.fw.any (fun c => c.kind == .helhal && s.mg.fwCause c == 0) then t.cp.hung = false ∧ t.cp.beat = true ∧ t.mg.events = []
    else t.cp = s.cp ∧ t.mg.events = s.mg.events) := by
  simp only [completes_iff (show exec .mailboxRestart s = execMailboxRestart s from rfl), execMailboxRestart]
  by_cases h : s.arg.fw.any (fun c => c.kind == .helhal && s.mg.fwCause c == 0) = true
  · simp only [h, Bool.not_true, Bool.false_eq_true, if_false, if_true]
    exact ⟨_, rfl, rfl, State.mailed_catchUp _ 4⟩
  · simp only [h, Bool.not_false, if_true]
    exact ⟨_, rfl, rfl, rfl, rfl⟩

theorem attest_signs (s : State) : Completes .attest s (fun t => t.mg.mailCmd = BitVec.ofNat 64 (2 ^ 63 + 5) ∧ t.tiles = s.tiles ∧ t.cp = s.cp) :=
  ⟨_, rfl, rfl, rfl, rfl⟩

end Sys2Proof.Machine
end

section
/-! O42 from the clauses above. -/

namespace Sys2Proof.Machine

open Sys2Proof.Claims

/-- Settles O42: its clauses on bring-up, clock, power and cooling, and those on watchdogs, retests and the mailbox, in their order. -/
theorem bringUpPowerAndWatchdogs : Obligations.BringUpPowerAndWatchdogs :=
  ⟨⟨moduleReset_resets,
      fun s h => functionReady_idle s (.inl (s.mg.ended_of_no_image _ h)),
      functionReady_testFails, functionReady_idle, functionReady_starts, functionLost_clears,
      clockLockGained_locks, clockLockLost_clears, ptpMessage_announces, ptpMessage_otherPort, ptpMessage_disciplines,
      crownBudgetDivision_divides, junctionThreshold105_marks, junctionThreshold115_switchesOff, powerDomainLoss_switchesOff,
      coolantFlowAlarm_lowersBudget, coolantFlowReturn_restoresBudget⟩,
    helhalHeartbeat_beats, commandProcessorHung_judges, coreHeartbeat_beats, coreHeartbeat_idleSite, watchdogExpiry_judges,
    watchdogExpiry_idleSite, fun s => tscWatchdogExpiry_judges s _ rfl, backgroundRetest_recorded,
    fun s => fullReTest_renews s _ rfl, fullReTest_spare,
    mailboxRead_queues, fun s => ⟨(mailboxStep_runs s _ rfl).1, (mailboxStep_runs s _ rfl).2, mailboxStep_malformed s _ rfl⟩,
    pageAnswer_delivered, mailboxRestart_reloads, attest_signs⟩

end Sys2Proof.Machine
end
